-- ==== Sys2Proof/Word.lean ====
section
/-! DEFINITION. The widths of the values AES-CORE handles (R10, R11, R70). -/

namespace Sys2Proof

/-- Eight bits, bit 7 the most significant (R10). -/
abbrev Byte := BitVec 8

/-- The value of one register or of one bus access (R22, R53). -/
abbrev Word := BitVec 32

/-- A cipher block, held as its integer view `val(b)`: byte 0 is the most significant byte (R11). -/
abbrev Block := BitVec 128

/-- The LEN field of a command word, an unsigned number of bytes 0..63 (R72). -/
abbrev Len := BitVec 6

end Sys2Proof
end

