-- ==== Sys2Proof/Config.lean ====
section
/-! DEFINITION. What the platform fixes around the core (R9, R52, R240): the parameters the spec leaves open.
They are an argument of the machine: every state carries them, no step changes them, and a statement about every
state is a statement about every platform. -/

namespace Sys2Proof

/-- The register window's size in bytes (R22, R50). -/
abbrev windowBytes : Nat := 0x80

/-- The platform's open parameters (R9). -/
structure Platform where
  /-- BASE divided by 0x80: BASE is a multiple of 0x80 by construction (R52). -/
  baseIndex : Nat
  /-- PRESENT: whether a core exists at BASE (R240). -/
  present : Bool
  deriving DecidableEq, Repr

/-- BASE, the byte address of the register window (R52). -/
abbrev Platform.base (p : Platform) : Nat := windowBytes * p.baseIndex

end Sys2Proof
end

