-- ==== Sys2Proof/Syntax.lean ====
section
/-! DEFINITION. The register names, the bus accesses, the commands and the ONE instruction type of AES-CORE
(R3, R22, R70, R78 and spec/opcode_table.json). -/

namespace Sys2Proof

/-- The registers of the window, by name (R22). Every aligned offset of the window is exactly one of them. -/
inductive Reg where
  | cmd
  | status
  /-- The reserved offsets 0x08 and 0x0C (R38). -/
  | rsvLow (j : Fin 2)
  | key (j : Fin 8)
  | bin (j : Fin 4)
  | bout (j : Fin 4)
  | tag (j : Fin 4)
  | hkey (j : Fin 4)
  /-- The reserved offsets 0x70 to 0x7C (R38). -/
  | rsvHigh (j : Fin 4)
  deriving DecidableEq, Repr

/-- The five commands (R74). -/
inductive Op where
  | expand | encrypt | decrypt | ghashUpdate | zeroize
  deriving DecidableEq, Repr

/-- What a 32-bit command word decodes to (R75). An illegal word keeps its value so that it can be written again. -/
inductive Command where
  | illegal (w : Word)
  | cmd (op : Op) (len : Len)
  deriving DecidableEq, Repr

/-- The instructions of AES-CORE, one for each row of spec/opcode_table.json: the five command words and the
illegal ones, each written to CMD (R3, R70, R76), and the two bus operations (R78). -/
inductive Instr where
  | expand (len : Len)
  | encrypt (len : Len)
  | decrypt (len : Len)
  | ghashUpdate (len : Len)
  | zeroize (len : Len)
  | wr (r : Reg) (v : Word)
  | rd (r : Reg)
  | illegal (w : Word)
  deriving DecidableEq, Repr

/-- The width of a bus access; only a word access is accepted (R53, R54). -/
inductive BusSize where
  | byte | half | word
  /-- Any access of more than 32 bits. -/
  | wide
  deriving DecidableEq, Repr

/-- One host access at the core's bus port (R15, R51 to R54). -/
structure Access where
  write : Bool
  addr  : Nat
  size  : BusSize
  /-- The byte enables of a write. A read does not use them. -/
  lanes : BitVec 4
  /-- The value of a write. A read does not use it. -/
  data  : Word
  deriving DecidableEq, Repr

end Sys2Proof
end

