-- ==== Sys2Proof/WellFormed.lean ====
section
/-! DEFINITION. Which instructions are written as the opcode table writes them. Every operand field has its exact
width by type; two checks are left, each tested with an ill-formed term in Tests/Slice0.lean. An ill-formed term still
has a meaning: these checks only fix one spelling for each bus transaction. -/

namespace Sys2Proof

/-- The mask form of R75: the word matches one of the five commands. -/
def isCommandWord (w : Word) : Bool :=
  [0x00000001, 0x00000002, 0x00000003, 0x00000004, 0x0000000F].contains (w &&& 0xFFFFC0FF)

/-- A `.illegal` carries a word that no command matches (R76). A write to CMD is written as the row of the word it
carries (R70, "written_to" of the opcode table), so `.wr` names another register. -/
def Instr.wf : Instr → Bool
  | .expand _ | .encrypt _ | .decrypt _ | .ghashUpdate _ | .zeroize _ | .rd _ => true
  | .wr r _ => r != .cmd
  | .illegal w => !isCommandWord w

abbrev WellFormed (i : Instr) : Prop := i.wf = true

end Sys2Proof
end

