-- ==== Sys2Proof/Decode.lean ====
section
/-! DEFINITION. Decoding, total and rejecting by name, and the encoder after it. Two layers, as the spec has them:
the command word (R70 to R76) and the bus access that carries it or that reads or writes another register (R51 to
R54, R78). -/

namespace Sys2Proof

/-! ### The command word -/

/-- The opcode of a word, R74. -/
def opOfCode (code : BitVec 4) : Option Op :=
  if code = 0x1 then some .expand
  else if code = 0x2 then some .encrypt
  else if code = 0x3 then some .decrypt
  else if code = 0x4 then some .ghashUpdate
  else if code = 0xF then some .zeroize
  else none

/-- Decoding of the 32-bit command word, R75: the reserved bits 31:14 and 7:4 first, then OP. -/
def decodeCommand (w : Word) : Command :=
  if w.extractLsb' 14 18 ≠ 0 ∨ w.extractLsb' 4 4 ≠ 0 then .illegal w
  else
    match opOfCode (w.extractLsb' 0 4) with
    | some op => .cmd op (w.extractLsb' 8 6)
    | none => .illegal w

/-- The opcode table's row for a decoded command. -/
def instrOfCommand : Command → Instr
  | .illegal w => .illegal w
  | .cmd .expand len => .expand len
  | .cmd .encrypt len => .encrypt len
  | .cmd .decrypt len => .decrypt len
  | .cmd .ghashUpdate len => .ghashUpdate len
  | .cmd .zeroize len => .zeroize len

/-- The row of a command word. -/
def decodeWord (w : Word) : Instr := instrOfCommand (decodeCommand w)

/-! ### The bus access -/

/-- Why an access is no `WR` or `RD` of a register: it is not in the window (R51), or the core answers it with a bus
error (R54). -/
inductive Reject where
  /-- The address lies outside the window: the access is not this core's (R51). -/
  | outsideWindow
  /-- 8-bit, 16-bit or wider than 32 bits (R54). -/
  | size
  /-- The offset is not a multiple of 4 (R54). -/
  | misaligned
  /-- A write that does not enable all four bytes (R54). -/
  | byteEnables
  deriving DecidableEq, Repr

/-- The register of word index `off[6:2]`, R78. -/
def regOfIndex (n : Nat) : Reg :=
  if n = 0 then .cmd
  else if n = 1 then .status
  else if n < 4 then .rsvLow (Fin.ofNat 2 (n - 2))
  else if n < 12 then .key (Fin.ofNat 8 (n - 4))
  else if n < 16 then .bin (Fin.ofNat 4 (n - 12))
  else if n < 20 then .bout (Fin.ofNat 4 (n - 16))
  else if n < 24 then .tag (Fin.ofNat 4 (n - 20))
  else if n < 28 then .hkey (Fin.ofNat 4 (n - 24))
  else .rsvHigh (Fin.ofNat 4 (n - 28))

/-- What an access asks of the core whose window begins at `base`. A word write to CMD is the row of the command word
it carries (R70, R78). DESIGN CHOICE (log 4): the order of the tests of one access that fails several of them; no
effect depends on it. -/
def decodeAccess (base : Nat) (a : Access) : Except Reject Instr :=
  if a.addr < base ∨ base + windowBytes ≤ a.addr then .error .outsideWindow
  else if a.size ≠ .word then .error .size
  else if (a.addr - base) % 4 ≠ 0 then .error .misaligned
  else if a.write then
    if a.lanes ≠ 0xF then .error .byteEnables
    else
      match regOfIndex ((a.addr - base) / 4) with
      | .cmd => .ok (decodeWord a.data)
      | r => .ok (.wr r a.data)
  else .ok (.rd (regOfIndex ((a.addr - base) / 4)))

/-- The instruction of an opcode-table word, whose bits are numbered as the table numbers them: a command word is one
32-bit value written to CMD, and no byte order enters (R55, R70). -/
def decodeTableWord (nbits w : Nat) : Option Instr :=
  if nbits ≤ 32 ∧ w < 2 ^ nbits then some (decodeWord (BitVec.ofNat 32 w)) else none

/-! ### The encoder -/

/-- OP of a command, R74. -/
def opCode : Op → BitVec 4
  | .expand => 0x1
  | .encrypt => 0x2
  | .decrypt => 0x3
  | .ghashUpdate => 0x4
  | .zeroize => 0xF

/-- The command word: 18 zeros, LEN, 4 zeros, OP (R70). -/
def encodeCommand (op : Op) (len : Len) : Word :=
  (((0 : BitVec 18) ++ len) ++ (0 : BitVec 4)) ++ opCode op

/-- The word index of a register, R78. -/
def regIndex : Reg → Nat
  | .cmd => 0
  | .status => 1
  | .rsvLow j => 2 + j
  | .key j => 4 + j
  | .bin j => 12 + j
  | .bout j => 16 + j
  | .tag j => 20 + j
  | .hkey j => 24 + j
  | .rsvHigh j => 28 + j

/-- The word write of `v` to the register `r`: `MemWrite(BASE + off, 4, v)`, R78. -/
def writeAccess (base : Nat) (r : Reg) (v : Word) : Access :=
  { write := true, addr := base + 4 * regIndex r, size := .word, lanes := 0xF, data := v }

/-- The word read of the register `r`: `MemRead(BASE + off, 4)`, R78. -/
def readAccess (base : Nat) (r : Reg) : Access :=
  { write := false, addr := base + 4 * regIndex r, size := .word, lanes := 0, data := 0 }

/-- The bus access of an instruction at a core whose window begins at `base`: a command or an illegal word is the word
write of it to CMD (R70, R78). -/
def encode (base : Nat) : Instr → Access
  | .expand len => writeAccess base .cmd (encodeCommand .expand len)
  | .encrypt len => writeAccess base .cmd (encodeCommand .encrypt len)
  | .decrypt len => writeAccess base .cmd (encodeCommand .decrypt len)
  | .ghashUpdate len => writeAccess base .cmd (encodeCommand .ghashUpdate len)
  | .zeroize len => writeAccess base .cmd (encodeCommand .zeroize len)
  | .wr r v => writeAccess base r v
  | .rd r => readAccess base r
  | .illegal w => writeAccess base .cmd w

end Sys2Proof
end

