-- ==== Sys2Proof/Machine/State.lean ====
section
/-! DEFINITION. The state of AES-CORE (R20), the inputs that wait at its port, the outcomes of a step, and reset
(R42, R250). -/

namespace Sys2Proof.Machine

/-- The core's sequencer (R20, R40). STATUS.BUSY is 1 exactly while the phase is `busy` (R25), so BUSY is stored
here and nowhere else. -/
inductive Phase where
  | idle | busy
  deriving DecidableEq, Repr

/-- STATUS.ERRCODE by name (R220). The codes 5, 6 and 7 are never written, so they have no name. -/
inductive ErrCode where
  | none
  | unsupportedKeySize
  | invalidBlockLength
  | illegalCommand
  | noSchedule
  deriving DecidableEq, Repr

/-- An accepted command: its opcode, its LEN and the snapshot of every register it reads (R40, R201). -/
inductive Pending where
  | expand (len : Len) (key : Vector Word 8)
  | encrypt (len : Len) (bin : Vector Word 4) (rk : Vector Block 28) (ksz : Bool)
  | decrypt (len : Len) (bin : Vector Word 4) (rk : Vector Block 28) (ksz : Bool)
  | ghashUpdate (len : Len) (tag hkey bin : Vector Word 4)
  | zeroize (len : Len)
  deriving DecidableEq, Repr

/-- What the bus port last answered to the host. The model's own field (log 5): the spec returns a read's value and
the bus error response to the host (R53, R54) and gives them no register. -/
inductive Response where
  /-- Nothing answered since reset. -/
  | none
  /-- A word write taken by the core, performed, ignored or dropped. -/
  | ack
  /-- A word read's value (R53). -/
  | data (v : Word)
  /-- The bus error response, which carries no data (R54). -/
  | busError
  deriving DecidableEq, Repr

/-- One event at the core, in the order of R62. -/
inductive Input where
  /-- A host access arrives (R53, R54). -/
  | access (a : Access)
  /-- The core has the turn: its completion step falls here if a command is accepted (R202, R203, R232). -/
  | coreTurn
  /-- The reset input is asserted (R250). -/
  | resetAssert
  /-- The reset input is released (R250). -/
  | resetRelease
  deriving DecidableEq, Repr

/-- The machine. The fields down to `pend` are the spec's (R20). CMD is not among them: it stores nothing, the word
being issued exists only inside the atomic issue (R23, R200, R224; log 3). The last four fields are the model's own
(logs 1, 2, 5, 6). -/
structure State where
  /-- KEY0..KEY7 (R33). -/
  key   : Vector Word 8
  /-- BIN0..BIN3 (R34). -/
  bin   : Vector Word 4
  /-- BOUT0..BOUT3 (R35). -/
  bout  : Vector Word 4
  /-- TAG0..TAG3 (R36). -/
  tag   : Vector Word 4
  /-- HKEY0..HKEY3 (R37). -/
  hkey  : Vector Word 4
  /-- The round-key RAM RK[0..27] (R39). -/
  rk    : Vector Block 28
  /-- kv, shown as STATUS.KV (R29). -/
  kv    : Bool
  /-- ksz, shown as STATUS.KSZ (R30). -/
  ksz   : Bool
  /-- STATUS.DONE (R26). -/
  done  : Bool
  /-- STATUS.ERR (R27). -/
  err   : Bool
  /-- STATUS.OVR (R28). -/
  ovr   : Bool
  /-- STATUS.ERRCODE (R31). -/
  errCode : ErrCode
  /-- phase, shown as STATUS.BUSY (R25, R40). -/
  phase : Phase
  /-- pend, the latched command (R40). -/
  pend  : Option Pending
  /-- The platform's parameters (R9), constant in every run (log 2). -/
  platform : Platform
  /-- Whether the reset input is asserted (R250, log 6). -/
  inReset : Bool
  /-- The port's last answer (log 5). -/
  resp  : Response
  /-- What happens next, first event first (log 1). -/
  inputs : List Input
  deriving DecidableEq, Repr

/-- Why the machine stops with a fault. -/
inductive Fault where
  /-- Raised by `step` on a host access to an address outside the window: "not this core's and not specified here"
  (R51). Safe: the core of the spec is not reached, and no claim is made past this point. -/
  | outsideWindow
  deriving DecidableEq, Repr

/-- Why the machine gives no next state. -/
inductive Refusal where
  /-- An instruction that has no meaning yet. No arm of `exec` raises it. Safe. -/
  | notModelled (mnemonic : String)
  /-- Raised by `step` when PRESENT is false: there is no core, and an access is outside the spec (R240, I3). Safe. -/
  | coreAbsent
  /-- Raised by `step` on a host access while reset is asserted, which is not specified (R250, I4). Safe. -/
  | accessDuringReset
  deriving DecidableEq, Repr

/-- The outcome type of this machine. -/
abbrev Result := Host.Outcome State Fault Refusal

/-- The state right after reset, or after power-on (R42, R250, R251): every register, flag and round-key slot is
zero, the core is idle and nothing is latched. The model's own fields: reset is released, the port has answered
nothing, no input waits, and a core is present at BASE = 0 (DESIGN CHOICE, log 2). -/
def State.reset : State where
  key := Vector.replicate 8 0
  bin := Vector.replicate 4 0
  bout := Vector.replicate 4 0
  tag := Vector.replicate 4 0
  hkey := Vector.replicate 4 0
  rk := Vector.replicate 28 0
  kv := false
  ksz := false
  done := false
  err := false
  ovr := false
  errCode := .none
  phase := .idle
  pend := none
  platform := { baseIndex := 0, present := true }
  inReset := false
  resp := .none
  inputs := []

end Sys2Proof.Machine
end

