-- ==== Sys2Proof/Machine/Flags.lean ====
section
/-! DEFINITION. STATUS and the error checks: the numeric error codes (R220), the word STATUS reads as (R24) and the
check every issued command passes (R225, R226). -/

namespace Sys2Proof.Machine

/-- The value of STATUS.ERRCODE (R220). -/
def errCodeBits : ErrCode → BitVec 3
  | .none => 0
  | .unsupportedKeySize => 1
  | .invalidBlockLength => 2
  | .illegalCommand => 3
  | .noSchedule => 4

/-- STATUS.BUSY: 1 exactly while phase = BUSY (R25). -/
def busy (s : State) : Bool := s.phase == .busy

/-- The word STATUS reads as, R24: bits 31:11 zero, ERRCODE, bits 7:6 zero, KSZ, KV, OVR, ERR, DONE, BUSY. -/
def statusWord (s : State) : Word :=
  (0 : BitVec 21) ++ errCodeBits s.errCode ++ (0 : BitVec 2) ++ BitVec.ofBool s.ksz ++ BitVec.ofBool s.kv
    ++ BitVec.ofBool s.ovr ++ BitVec.ofBool s.err ++ BitVec.ofBool s.done ++ BitVec.ofBool (busy s)

/-- The check function, whose first failing test gives the one error reported (R226). -/
def check : Command → Bool → ErrCode
  | .illegal _, _ => .illegalCommand
  | .cmd op len, kv =>
    if op = .expand ∧ len ≠ 16 ∧ len ≠ 32 then .unsupportedKeySize
    else if (op = .encrypt ∨ op = .decrypt ∨ op = .ghashUpdate) ∧ len ≠ 16 then .invalidBlockLength
    else if (op = .encrypt ∨ op = .decrypt) ∧ kv = false then .noSchedule
    else .none

end Sys2Proof.Machine
end

