-- ==== Sys2Proof/Machine/Operands.lean ====
section
/-! DEFINITION. Every operand form: the bytes, words and lanes of a block, and how register words pack them (R10 to
R12, R56). -/

namespace Sys2Proof.Machine

/-- Byte `k` of a block, k = 0..15, byte 0 the most significant (R11). -/
def blockByte (b : Block) (k : Nat) : Byte := b.extractLsb' (8 * (15 - k)) 8

/-- Word, or lane, `j` of a block, j = 0..3: bytes 4j..4j+3 as a big-endian number (R11, R12). -/
def blockWord (b : Block) (j : Nat) : Word := b.extractLsb' (32 * (3 - j)) 32

/-- The block of four words, word 0 the most significant (R11, R57). -/
def blockOfWords (w0 w1 w2 w3 : Word) : Block := w0 ++ w1 ++ w2 ++ w3

/-- Byte `k` of a word, k = 0..3, byte 0 the most significant (R11, R56). -/
def wordByte (w : Word) (k : Nat) : Byte := w.extractLsb' (8 * (3 - k)) 8

/-- The big-endian word of four bytes (R11, R56). -/
def wordOfBytes (b0 b1 b2 b3 : Byte) : Word := b0 ++ b1 ++ b2 ++ b3

/-- The block whose byte `k` is `f k`, k = 0..15 (R11). -/
def blockOfBytes (f : Nat → Byte) : Block :=
  blockOfWords (wordOfBytes (f 0) (f 1) (f 2) (f 3)) (wordOfBytes (f 4) (f 5) (f 6) (f 7))
    (wordOfBytes (f 8) (f 9) (f 10) (f 11)) (wordOfBytes (f 12) (f 13) (f 14) (f 15))

/-- The block with `f` applied to each of its four words. -/
def blockMapWords (f : Word → Word) (b : Block) : Block :=
  blockOfWords (f (blockWord b 0)) (f (blockWord b 1)) (f (blockWord b 2)) (f (blockWord b 3))

/-- `Bcast(w)`: the block whose four words are all `w` (R12). -/
def bcast (w : Word) : Block := blockOfWords w w w w

/-- The block a four-word register group holds (R56, R57). -/
def blockOfGroup (g : Vector Word 4) : Block := blockOfWords g[0] g[1] g[2] g[3]

/-- The words a block fills a register group with (R56). -/
def groupOfBlock (b : Block) : Vector Word 4 := #v[blockWord b 0, blockWord b 1, blockWord b 2, blockWord b 3]

/-- Key bytes 0..15, the block of KEY0..KEY3 (R33, R56). -/
def keyLow (k : Vector Word 8) : Block := blockOfWords k[0] k[1] k[2] k[3]

/-- Key bytes 16..31, the block of KEY4..KEY7 (R33, R56). -/
def keyHigh (k : Vector Word 8) : Block := blockOfWords k[4] k[5] k[6] k[7]

/-- Slot `j` of the round-key RAM; the 28 slots are j = 0..27 (R39). No rule reads past them. -/
def rkSlot (rk : Vector Block 28) (j : Nat) : Block := rk.toArray.getD j 0

end Sys2Proof.Machine
end

