-- ==== Sys2Proof/Machine/Ops.lean ====
section
/-! DEFINITION. The shared operations over the registers: the bus port's answer, a dropped write (R205), issue,
acceptance and rejection of a command (R200, R201, R227), completion (R203), reading and writing a register (R22).

AES-CORE has no trap entry but `reject` ("the hardware's whole trap entry", R227) and no return operation: ERR and
ERRCODE stay until the next issued command (R233). -/

namespace Sys2Proof.Machine

/-! ### The bus port -/

/-- The port answers the host (R53, R54; log 5). -/
def respond (r : Response) (s : State) : State := { s with resp := r }

/-- A host write that finds the core BUSY: nothing but the sticky OVR changes (R205). -/
def dropWrite (s : State) : State := { s with ovr := true }

/-- A word write to the window: dropped while BUSY, else it does `act` (R22, R205). -/
def busWrite (act : State → State) (s : State) : State :=
  respond .ack (match s.phase with | .busy => dropWrite s | .idle => act s)

/-! ### Issue, acceptance, rejection -/

/-- What an issue does before the checks (R28, R200). -/
def clearOvr (s : State) : State := { s with ovr := false }

/-- Rejection, R227. -/
def reject (e : ErrCode) (s : State) : State := { s with err := true, errCode := e, done := true }

/-- The latched command: the snapshot of every register the command reads (R40). -/
def snapshot (op : Op) (len : Len) (s : State) : Pending :=
  match op with
  | .expand => .expand len s.key
  | .encrypt => .encrypt len s.bin s.rk s.ksz
  | .decrypt => .decrypt len s.bin s.rk s.ksz
  | .ghashUpdate => .ghashUpdate len s.tag s.hkey s.bin
  | .zeroize => .zeroize len

/-- The latched command is `p`, and STATUS says so (R201). -/
def latch (p : Pending) (s : State) : State :=
  { s with pend := some p, phase := .busy, done := false, err := false, errCode := .none }

/-- Acceptance, R201. -/
def accept (op : Op) (len : Len) (s : State) : State := latch (snapshot op len s) s

/-- Issue of a decoded command while the core is idle, R200: OVR cleared, then the check, then rejection or
acceptance. -/
def issue (c : Command) (s : State) : State :=
  match c with
  | .illegal w => reject (check (.illegal w) s.kv) (clearOvr s)
  | .cmd op len =>
    match check (.cmd op len) s.kv with
    | .none => accept op len (clearOvr s)
    | e => reject e (clearOvr s)

/-! ### Completion -/

/-- The end of every completion: nothing latched, idle, DONE (R203). -/
def finish (s : State) : State := { s with pend := none, phase := .idle, done := true }

/-! ### Registers -/

/-- The value a word read of a register returns (R22, R33 to R38). -/
def readReg (r : Reg) (s : State) : Word :=
  match r with
  | .cmd => 0
  | .status => statusWord s
  | .rsvLow _ => 0
  | .key _ => 0
  | .bin j => s.bin[j]
  | .bout j => s.bout[j]
  | .tag j => s.tag[j]
  | .hkey _ => 0
  | .rsvHigh _ => 0

/-- The effect of a word write to a register while the core is idle (R22, R23, R33 to R38, R60). -/
def writeReg (r : Reg) (v : Word) (s : State) : State :=
  match r with
  | .cmd => issue (decodeCommand v) s
  | .status => s
  | .rsvLow _ => s
  | .key j => { s with key := s.key.set j v }
  | .bin j => { s with bin := s.bin.set j v }
  | .bout _ => s
  | .tag j => { s with tag := s.tag.set j v }
  | .hkey j => { s with hkey := s.hkey.set j v }
  | .rsvHigh _ => s

end Sys2Proof.Machine
end

