-- ==== Sys2Proof/Machine/Bus.lean ====
section
/-! DEFINITION. The host's two bus operations WR and RD (R53, R78), the accesses the core answers with a bus error
(R54), and the reset input (R250). -/

namespace Sys2Proof.Machine

/-- `WR r, v` (R78): dropped while BUSY, else the register's write (R22, R205). -/
def execWr (r : Reg) (v : Word) (s : State) : Result := .next (busWrite (writeReg r v) s)

/-- `RD r` (R78): the register's read value, with no side effect (R60, R206). -/
def execRd (r : Reg) (s : State) : Result := .next (respond (.data (readReg r s)) s)

/-- The bus error response: no state changes, not even OVR, and no data (R54). -/
def busErrorAccess (s : State) : State := respond .busError s

/-- Reset asserted: every piece of state at its reset value, a BUSY command abandoned (R42, R250). The platform and the
events still to come are not the core's state. -/
def assertReset (s : State) : State :=
  { State.reset with platform := s.platform, inputs := s.inputs, inReset := true }

/-- Reset released: the core is idle and waits (R250, R252). -/
def releaseReset (s : State) : State := { s with inReset := false }

end Sys2Proof.Machine
end

