-- ==== Sys2Proof/Machine/Ghash.lean ====
section
/-! DEFINITION. The binary-field accumulator and GHASH_UPDATE (43_ghash.md, R180 to R188). A block is the field
element whose coefficient of x^i is bit 127 - i (R180). -/

namespace Sys2Proof.Machine

/-- The reduction constant `Rc`, R182. -/
def reductionConstant : Block := 0xE1000000000000000000000000000000

/-- Multiplication by x: the update of V in the loop of R183. -/
def gfShift (v : Block) : Block := if v.getLsbD 0 then (v >>> 1) ^^^ reductionConstant else v >>> 1

/-- The last `n` passes of the loop of R183 from the pair (Z, V): they look at bits n-1 .. 0 of X. -/
def gfMulLoop (x : Block) : Nat → Block → Block → Block
  | 0, z, _ => z
  | n + 1, z, v => gfMulLoop x n (if x.getLsbD n then z ^^^ v else z) (gfShift v)

/-- `GFMul`, R183. -/
def gfMul (x y : Block) : Block := gfMulLoop x 128 0 y

/-- `GhashUpdate`, R185. -/
def ghashUpdate (tag h b : Block) : Block := gfMul (tag ^^^ b) h

/-- The completion effect of GHASH_UPDATE, with its snapshot (R186). -/
def completeGhashUpdate (tag hkey bin : Vector Word 4) (s : State) : State :=
  { s with tag := groupOfBlock (ghashUpdate (blockOfGroup tag) (blockOfGroup hkey) (blockOfGroup bin)) }

/-- GHASH_UPDATE, the word with OP = 0x4 written to CMD (R186, R200, R205). -/
def execGhashUpdate (len : Len) (s : State) : Result := .next (busWrite (issue (.cmd .ghashUpdate len)) s)

end Sys2Proof.Machine
end

