-- ==== Sys2Proof/Machine/Primitives.lean ====
section
/-! DEFINITION. Field arithmetic and the round primitives of 40_primitives.md (R90 to R111). -/

namespace Sys2Proof.Machine

/-! ### GF(2^8) -/

/-- Doubling in GF(2^8), R92. -/
def xtime (a : Byte) : Byte := (a <<< 1) ^^^ (if a.getLsbD 7 then 0x1B else 0x00)

/-- One pass of the loop of R93, on the pair (a, r). -/
def gmulStep (b : Byte) (p : Byte × Byte) (i : Nat) : Byte × Byte :=
  (xtime p.1, if b.getLsbD i then p.2 ^^^ p.1 else p.2)

/-- Multiplication in GF(2^8), R93. -/
def gmul (a b : Byte) : Byte := ((List.range 8).foldl (gmulStep b) (a, 0)).2

/-- One pass of the power below, on the pair (a^(2^i), the product so far). -/
def ginvStep (p : Byte × Byte) : Byte × Byte := (gmul p.1 p.1, gmul p.2 (gmul p.1 p.1))

/-- The inverse of R94, as a^254, the product of a^2, a^4, ..., a^128; it gives 0 for 0. -/
def ginv (a : Byte) : Byte := (Nat.repeat ginvStep 7 (a, 1)).2

/-! ### Byte substitution -/

/-- The affine map A, bit by bit, R95. -/
def affine (y : Byte) : Byte :=
  y ^^^ y.rotateRight 4 ^^^ y.rotateRight 5 ^^^ y.rotateRight 6 ^^^ y.rotateRight 7 ^^^ 0x63

/-- The table of S, one row of 16 entries for each high hex digit (R96). -/
def sboxRows : List Block :=
  [0x637c777bf26b6fc53001672bfed7ab76, 0xca82c97dfa5947f0add4a2af9ca472c0,
   0xb7fd9326363ff7cc34a5e5f171d83115, 0x04c723c31896059a071280e2eb27b275] ++
  [0x09832c1a1b6e5aa0523bd6b329e32f84, 0x53d100ed20fcb15b6acbbe394a4c58cf,
   0xd0efaafb434d338545f9027f503c9fa8, 0x51a3408f929d38f5bcb6da2110fff3d2] ++
  [0xcd0c13ec5f974417c4a77e3d645d1973, 0x60814fdc222a908846eeb814de5e0bdb,
   0xe0323a0a4906245cc2d3ac629195e479, 0xe7c8376d8dd54ea96c56f4ea657aae08] ++
  [0xba78252e1ca6b4c6e8dd741f4bbd8b8a, 0x703eb5664803f60e613557b986c11d9e,
   0xe1f8981169d98e949b1e87e9ce5528df, 0x8ca1890dbfe6426841992d0fb054bb16]

/-- The table of Sinv, same layout (R97). -/
def sboxInvRows : List Block :=
  [0x52096ad53036a538bf40a39e81f3d7fb, 0x7ce339829b2fff87348e4344c4dee9cb,
   0x547b9432a6c2233dee4c950b42fac34e, 0x082ea16628d924b2765ba2496d8bd125] ++
  [0x72f8f66486689816d4a45ccc5d65b692, 0x6c704850fdedb9da5e154657a78d9d84,
   0x90d8ab008cbcd30af7e45805b8b34506, 0xd02c1e8fca3f0f02c1afbd0301138a6b] ++
  [0x3a9111414f67dcea97f2cfcef0b4e673, 0x96ac7422e7ad3585e2f937e81c75df6e,
   0x47f11a711d29c5896fb7620eaa18be1b, 0xfc563e4bc6d279209adbc0fe78cd5af4] ++
  [0x1fdda8338807c731b11210592780ec5f, 0x60517fa919b54a0d2de57a9f93c99cef,
   0xa0e03b4dae2af5b0c8ebbb3c83539961, 0x172b047eba77d626e169146355210c7d]

/-- The entry of byte `a` in a table of rows: row the high hex digit, column the low one. -/
def tableEntry (rows : List Block) (a : Byte) : Byte := blockByte (rows.getD (a.toNat / 16) 0) (a.toNat % 16)

/-- The substitution box S (R95, R96). -/
def sbox (a : Byte) : Byte := tableEntry sboxRows a

/-- The inverse substitution Sinv (R97). -/
def sboxInv (a : Byte) : Byte := tableEntry sboxInvRows a

/-! ### The round steps -/

/-- SubBytes, R99. -/
def subBytes (b : Block) : Block := blockOfBytes fun k => sbox (blockByte b k)

/-- InvSubBytes, R99. -/
def invSubBytes (b : Block) : Block := blockOfBytes fun k => sboxInv (blockByte b k)

/-- ShiftRows, R100: byte r + 4c of the result is byte r + 4((c + r) mod 4) of the block. -/
def shiftRows (b : Block) : Block := blockOfBytes fun k => blockByte b (k % 4 + 4 * ((k / 4 + k % 4) % 4))

/-- InvShiftRows, R101: byte r + 4((c + r) mod 4) of the result is byte r + 4c of the block. -/
def invShiftRows (b : Block) : Block := blockOfBytes fun k => blockByte b (k % 4 + 4 * ((k / 4 + 4 - k % 4) % 4))

/-- One column of MixColumns, R102. -/
def mixColumn (w : Word) : Word :=
  let a0 := wordByte w 0
  let a1 := wordByte w 1
  let a2 := wordByte w 2
  let a3 := wordByte w 3
  wordOfBytes
    (gmul 2 a0 ^^^ gmul 3 a1 ^^^ a2 ^^^ a3)
    (a0 ^^^ gmul 2 a1 ^^^ gmul 3 a2 ^^^ a3)
    (a0 ^^^ a1 ^^^ gmul 2 a2 ^^^ gmul 3 a3)
    (gmul 3 a0 ^^^ a1 ^^^ a2 ^^^ gmul 2 a3)

/-- MixColumns, R102. -/
def mixColumns (b : Block) : Block := blockMapWords mixColumn b

/-- One column of InvMixColumns, R103. -/
def invMixColumn (w : Word) : Word :=
  let a0 := wordByte w 0
  let a1 := wordByte w 1
  let a2 := wordByte w 2
  let a3 := wordByte w 3
  wordOfBytes
    (gmul 14 a0 ^^^ gmul 11 a1 ^^^ gmul 13 a2 ^^^ gmul 9 a3)
    (gmul 9 a0 ^^^ gmul 14 a1 ^^^ gmul 11 a2 ^^^ gmul 13 a3)
    (gmul 13 a0 ^^^ gmul 9 a1 ^^^ gmul 14 a2 ^^^ gmul 11 a3)
    (gmul 11 a0 ^^^ gmul 13 a1 ^^^ gmul 9 a2 ^^^ gmul 14 a3)

/-- InvMixColumns, R103. -/
def invMixColumns (b : Block) : Block := blockMapWords invMixColumn b

/-- AddRoundKey, R104. -/
def addRoundKey (b k : Block) : Block := b ^^^ k

/-! ### The four round functions -/

/-- RoundEnc, R105. -/
def roundEnc (s k : Block) : Block := addRoundKey (mixColumns (subBytes (shiftRows s))) k

/-- RoundEncLast, R106. -/
def roundEncLast (s k : Block) : Block := addRoundKey (subBytes (shiftRows s)) k

/-- RoundDec, R107. -/
def roundDec (s k : Block) : Block := addRoundKey (invMixColumns (invSubBytes (invShiftRows s))) k

/-- RoundDecLast, R108. -/
def roundDecLast (s k : Block) : Block := addRoundKey (invSubBytes (invShiftRows s)) k

end Sys2Proof.Machine
end

