-- ==== Sys2Proof/Machine/KeySchedule.lean ====
section
/-! DEFINITION. The key schedule generator and EXPAND (41_key_schedule.md, R130 to R147). -/

namespace Sys2Proof.Machine

/-- The round constant `rc[i]`, i = 1..10 (R130). -/
def rcon (i : Nat) : Byte := [0x01, 0x02, 0x04, 0x08, 0x10, 0x20, 0x40, 0x80, 0x1B, 0x36].getD (i - 1) 0

/-- SubWord, R131. -/
def subWord (w : Word) : Word :=
  wordOfBytes (sbox (wordByte w 0)) (sbox (wordByte w 1)) (sbox (wordByte w 2)) (sbox (wordByte w 3))

/-- RotWord, R132: (a0, a1, a2, a3) becomes (a1, a2, a3, a0). -/
def rotWord (w : Word) : Word := wordOfBytes (wordByte w 1) (wordByte w 2) (wordByte w 3) (wordByte w 0)

/-- The key-generation assist, R133. -/
def assist (x : Block) (rc : Byte) : Block :=
  blockOfWords
    (subWord (blockWord x 1))
    (rotWord (subWord (blockWord x 1)) ^^^ wordOfBytes rc 0 0 0)
    (subWord (blockWord x 3))
    (rotWord (subWord (blockWord x 3)) ^^^ wordOfBytes rc 0 0 0)

/-- Lane selection, R134. -/
def sel (a : Block) (j : Nat) : Word := blockWord a j

/-- The diffusion, R135. -/
def diffuse (k : Block) : Block :=
  blockOfWords
    (blockWord k 0)
    (blockWord k 0 ^^^ blockWord k 1)
    (blockWord k 0 ^^^ blockWord k 1 ^^^ blockWord k 2)
    (blockWord k 0 ^^^ blockWord k 1 ^^^ blockWord k 2 ^^^ blockWord k 3)

/-- One expansion step, R136. -/
def expandStep (base prev : Block) (rc : Byte) (j : Nat) : Block :=
  diffuse base ^^^ bcast (sel (assist prev rc) j)

/-- Forward key `i` of the 128-bit expansion, i = 0..10 (R137). -/
def expand128 (key : Block) : Nat → Block
  | 0 => key
  | i + 1 => expandStep (expand128 key i) (expand128 key i) (rcon (i + 1)) 3

/-- Forward key `i` of the 256-bit expansion, i = 0..14 (R138): even keys take the rotating step with the next round
constant, odd keys the non-rotating step with none. -/
def expand256 (key0 key1 : Block) : Nat → Block
  | 0 => key0
  | 1 => key1
  | i + 2 =>
    if i % 2 = 0 then expandStep (expand256 key0 key1 i) (expand256 key0 key1 (i + 1)) (rcon ((i + 2) / 2)) 3
    else expandStep (expand256 key0 key1 i) (expand256 key0 key1 (i + 1)) 0x00 2

/-- Slot `j` of the stored schedule of the forward keys `k[0..nr]`, j = 0..2nr-1 (R144); every slot past it is zero
(R39, R145). -/
def scheduleSlot (nr : Nat) (k : Nat → Block) (j : Nat) : Block :=
  if j ≤ nr then k j
  else if j < 2 * nr then invMixColumns (k (2 * nr - j))
  else 0

/-- The 28 slots the schedule of `k[0..nr]` fills the round-key RAM with (R39, R144, R145). -/
def schedule (nr : Nat) (k : Nat → Block) : Vector Block 28 := Vector.ofFn fun j => scheduleSlot nr k j

/-- The schedule EXPAND derives from the key registers: LEN = 16 takes key bytes 0..15, LEN = 32 all (R145). -/
def expandKey (len : Len) (key : Vector Word 8) : Vector Block 28 :=
  if len = 16 then schedule 10 (expand128 (keyLow key))
  else schedule 14 (expand256 (keyLow key) (keyHigh key))

/-- The completion effect of EXPAND, with its snapshot (R145, R146). -/
def completeExpand (len : Len) (key : Vector Word 8) (s : State) : State :=
  { s with rk := expandKey len key, ksz := len ≠ 16, kv := true, key := Vector.replicate 8 0 }

/-- EXPAND, the word with OP = 0x1 written to CMD (R145, R200, R205). -/
def execExpand (len : Len) (s : State) : Result := .next (busWrite (issue (.cmd .expand len)) s)

end Sys2Proof.Machine
end

