-- ==== Sys2Proof/Machine/RoundPipeline.lean ====
section
/-! DEFINITION. The round pipeline, ENCRYPT and DECRYPT (42_round_pipeline.md, R160 to R166). -/

namespace Sys2Proof.Machine

/-- The number of rounds of the schedule's key size (R162). -/
def roundCount (ksz : Bool) : Nat := if ksz then 14 else 10

/-- The block after the initial key xor and rounds 1..r of `Cipher` (R160). -/
def cipherRounds (rk : Vector Block 28) (b : Block) : Nat → Block
  | 0 => b ^^^ rkSlot rk 0
  | r + 1 => roundEnc (cipherRounds rk b r) (rkSlot rk (r + 1))

/-- `Cipher`, R160. -/
def cipher (nr : Nat) (rk : Vector Block 28) (b : Block) : Block :=
  roundEncLast (cipherRounds rk b (nr - 1)) (rkSlot rk nr)

/-- The block after the initial key xor and `i` rounds of `InvCipher`, which use slots nr+1 .. nr+i (R161). -/
def invCipherRounds (nr : Nat) (rk : Vector Block 28) (b : Block) : Nat → Block
  | 0 => b ^^^ rkSlot rk nr
  | i + 1 => roundDec (invCipherRounds nr rk b i) (rkSlot rk (nr + (i + 1)))

/-- `InvCipher`, the equivalent inverse cipher, R161. -/
def invCipher (nr : Nat) (rk : Vector Block 28) (b : Block) : Block :=
  roundDecLast (invCipherRounds nr rk b (nr - 1)) (rkSlot rk 0)

/-- The completion effect of ENCRYPT, with its snapshot (R165). -/
def completeEncrypt (bin : Vector Word 4) (rk : Vector Block 28) (ksz : Bool) (s : State) : State :=
  { s with bout := groupOfBlock (cipher (roundCount ksz) rk (blockOfGroup bin)) }

/-- The completion effect of DECRYPT, with its snapshot (R166). -/
def completeDecrypt (bin : Vector Word 4) (rk : Vector Block 28) (ksz : Bool) (s : State) : State :=
  { s with bout := groupOfBlock (invCipher (roundCount ksz) rk (blockOfGroup bin)) }

/-- ENCRYPT, the word with OP = 0x2 written to CMD (R165, R200, R205). -/
def execEncrypt (len : Len) (s : State) : Result := .next (busWrite (issue (.cmd .encrypt len)) s)

/-- DECRYPT, the word with OP = 0x3 written to CMD (R166, R200, R205). -/
def execDecrypt (len : Len) (s : State) : Result := .next (busWrite (issue (.cmd .decrypt len)) s)

end Sys2Proof.Machine
end

