-- ==== Sys2Proof/Machine/Control.lean ====
section
/-! DEFINITION. ZEROIZE, the illegal words, and the core's own completion step (44_control.md, R200 to R207). -/

namespace Sys2Proof.Machine

/-- The completion effect of ZEROIZE (R207). -/
def completeZeroize (s : State) : State :=
  { s with
    rk := Vector.replicate 28 0, kv := false, ksz := false
    key := Vector.replicate 8 0, bin := Vector.replicate 4 0, bout := Vector.replicate 4 0
    tag := Vector.replicate 4 0, hkey := Vector.replicate 4 0 }

/-- ZEROIZE, the word with OP = 0xF written to CMD; LEN is ignored (R207, R200, R205). -/
def execZeroize (len : Len) (s : State) : Result := .next (busWrite (issue (.cmd .zeroize len)) s)

/-- An illegal word written to CMD: rejected with ILLEGAL_COMMAND (R76, R230), dropped while BUSY (R205). -/
def execIllegal (w : Word) (s : State) : Result := .next (busWrite (issue (.illegal w)) s)

/-- The effect of the latched command, R203. -/
def effect (p : Pending) (s : State) : State :=
  match p with
  | .expand len key => completeExpand len key s
  | .encrypt _ bin rk ksz => completeEncrypt bin rk ksz s
  | .decrypt _ bin rk ksz => completeDecrypt bin rk ksz s
  | .ghashUpdate _ tag hkey bin => completeGhashUpdate tag hkey bin s
  | .zeroize _ => completeZeroize s

/-- `complete()`, one atomic update (R203, R204). Nothing latched while BUSY is a state no run reaches (R43). -/
def complete (s : State) : State :=
  match s.pend with
  | some p => finish (effect p s)
  | none => s

/-- The core's turn: its completion step is enabled exactly when phase = BUSY (R203). -/
def coreTurn (s : State) : State :=
  match s.phase with
  | .busy => complete s
  | .idle => s

end Sys2Proof.Machine
end

