-- ==== Sys2Proof/Machine/Step.lean ====
section
/-! DEFINITION. One step: the next event at the core, in the order of R62. -/

namespace Sys2Proof.Machine

/-- A host access. Outside the window it is not this core's (R51); while reset is asserted it is not specified (R250);
any other access that is no aligned word access gets a bus error (R54); the rest run the instruction they encode. -/
def hostAccess (a : Access) (s : State) : Result :=
  match decodeAccess s.platform.base a with
  | .error .outsideWindow => .fault .outsideWindow
  | .error _ =>
    match s.inReset with
    | true => .refused .accessDuringReset
    | false => .next (busErrorAccess s)
  | .ok i =>
    match s.inReset with
    | true => .refused .accessDuringReset
    | false => exec i s

/-- The event `e` happens. -/
def takeInput (e : Input) (s : State) : Result :=
  match e with
  | .access a => hostAccess a s
  | .coreTurn => .next (coreTurn s)
  | .resetAssert => .next (assertReset s)
  | .resetRelease => .next (releaseReset s)

/-- One step. The first waiting event happens; with none waiting the core has the turn, so an accepted command always
completes (R202), and an idle core waits (R252). Where PRESENT is false there is no core (R240). -/
def step (s : State) : Host.Outcome State Fault Refusal :=
  match s.platform.present, s.inputs with
  | false, _ => .refused .coreAbsent
  | true, [] => .next (coreTurn s)
  | true, e :: rest => takeInput e { s with inputs := rest }

/-- `s` with the write of the word `w` to CMD as its next event, at a core that is present and out of reset: the bits
of `w` above `nbits` are zero. -/
def State.withFetchWord (s : State) (nbits w : Nat) : State :=
  { s with
    platform := { s.platform with present := true }
    inReset := false
    inputs := .access (writeAccess s.platform.base .cmd (BitVec.ofNat 32 (w % 2 ^ nbits))) :: s.inputs }

end Sys2Proof.Machine
end

