-- ==== Sys2Proof/Machine/HostProgram.lean ====
section
/-! DEFINITION. The host program notation of R79 and R80: what each line is as events at the core's port. The core runs
no program (R21); the host's transactions are loaded from outside the machine (log 1). -/

namespace Sys2Proof.Machine

/-- The groups WRBLK writes (R79). -/
inductive WriteGroup where
  | bin | tag | hkey
  deriving DecidableEq, Repr

/-- The groups RDBLK reads (R79). -/
inductive ReadGroup where
  | bin | bout | tag
  deriving DecidableEq, Repr

/-- One line of a host program (R79). -/
inductive HostLine where
  | wr (r : Reg) (v : Word)
  | rd (r : Reg)
  | cmd (op : Op) (len : Len)
  /-- POLL, in the run in which `busyReads` reads of STATUS return BUSY = 1, the core then completes, and the next
  read ends the loop (R79, R202). -/
  | poll (busyReads : Nat)
  | wrblk (g : WriteGroup) (b : Block)
  | rdblk (g : ReadGroup)
  | wrkey16 (k : Block)
  | wrkey32 (k0 k1 : Block)
  deriving DecidableEq, Repr

/-- The LEN that `CMD <OP>` takes where it is left out; EXPAND needs one (R79). -/
def defaultLen : Op → Option Len
  | .expand => none
  | .encrypt | .decrypt | .ghashUpdate => some 16
  | .zeroize => some 0

/-- Word `j` of a group that WRBLK writes. -/
def writeGroupReg (g : WriteGroup) (j : Fin 4) : Reg :=
  match g with
  | .bin => .bin j
  | .tag => .tag j
  | .hkey => .hkey j

/-- Word `j` of a group that RDBLK reads. -/
def readGroupReg (g : ReadGroup) (j : Fin 4) : Reg :=
  match g with
  | .bin => .bin j
  | .bout => .bout j
  | .tag => .tag j

/-- The bus transaction `W off v` (R80). -/
def writeInput (base : Nat) (r : Reg) (v : Word) : Input := .access (writeAccess base r v)

/-- The bus transaction `R off` (R80). -/
def readInput (base : Nat) (r : Reg) : Input := .access (readAccess base r)

/-- The four writes of WRBLK, in order (R79). -/
def writeBlockInputs (base : Nat) (reg : Fin 4 → Reg) (b : Block) : List Input :=
  [writeInput base (reg 0) (blockWord b 0), writeInput base (reg 1) (blockWord b 1),
   writeInput base (reg 2) (blockWord b 2), writeInput base (reg 3) (blockWord b 3)]

/-- A line's events, in order (R79, R80). -/
def lineInputs (base : Nat) : HostLine → List Input
  | .wr r v => [writeInput base r v]
  | .rd r => [readInput base r]
  | .cmd op len => [writeInput base .cmd (encodeCommand op len)]
  | .poll n => List.replicate n (readInput base .status) ++ [.coreTurn, readInput base .status]
  | .wrblk g b => writeBlockInputs base (writeGroupReg g) b
  | .rdblk g =>
    [readInput base (readGroupReg g 0), readInput base (readGroupReg g 1),
     readInput base (readGroupReg g 2), readInput base (readGroupReg g 3)]
  | .wrkey16 k => writeBlockInputs base (fun j => .key (Fin.castLE (by decide) j)) k
  | .wrkey32 k0 k1 =>
    writeBlockInputs base (fun j => .key (Fin.castLE (by decide) j)) k0
      ++ writeBlockInputs base (fun j => .key (Fin.natAdd 4 j)) k1

/-- A host program's events, in order. -/
def programInputs (base : Nat) (lines : List HostLine) : List Input := lines.flatMap (lineInputs base)

/-- The machine with a host program waiting before what waits already (log 1). -/
def loadProgram (lines : List HostLine) (s : State) : State :=
  { s with inputs := programInputs s.platform.base lines ++ s.inputs }

end Sys2Proof.Machine
end

