-- ==== Sys2Proof/Safety.lean ====
section
/-! DEFINITION. The terms the claims use: the status flags, the latched command's identity, which agent moves, the
machine's invariant (R40, R43), reachability, and what of a state a host may ever read (R33, R37, R39). -/

namespace Sys2Proof.Machine

/-- The fields of STATUS, in the order of the event table (R44). -/
structure StatusFlags where
  busy : Bool
  done : Bool
  err : Bool
  ovr : Bool
  kv : Bool
  ksz : Bool
  errCode : ErrCode
  deriving DecidableEq, Repr

def flagsOf (s : State) : StatusFlags :=
  { busy := busy s, done := s.done, err := s.err, ovr := s.ovr, kv := s.kv, ksz := s.ksz, errCode := s.errCode }

/-- The opcode of a latched command. -/
def pendingOp : Pending → Op
  | .expand .. => .expand
  | .encrypt .. => .encrypt
  | .decrypt .. => .decrypt
  | .ghashUpdate .. => .ghashUpdate
  | .zeroize .. => .zeroize

/-- The LEN of a latched command. -/
def pendingLen : Pending → Len
  | .expand len _ => len
  | .encrypt len _ _ _ => len
  | .decrypt len _ _ _ => len
  | .ghashUpdate len _ _ _ => len
  | .zeroize len => len

/-- The command is accepted, by the table of R74 and R225. -/
def Acceptable (op : Op) (len : Len) (kv : Bool) : Prop :=
  match op with
  | .expand => len = 16 ∨ len = 32
  | .encrypt | .decrypt => len = 16 ∧ kv = true
  | .ghashUpdate => len = 16
  | .zeroize => True

/-! ### The states an issued command leads to, field by field -/

/-- After a CMD write whose command was accepted, with the latch `p` (R200, R201). -/
def acceptedState (p : Pending) (s : State) : State :=
  { s with
    pend := some p, phase := .busy, done := false, err := false, errCode := .none, ovr := false, resp := .ack }

/-- After a CMD write whose command was rejected with the code `e` (R200, R227). -/
def rejectedState (e : ErrCode) (s : State) : State :=
  { s with done := true, err := true, errCode := e, ovr := false, resp := .ack }

/-- After a CMD write whose command was accepted and has completed, before its data effect (R201, R203). -/
def completedState (s : State) : State :=
  { s with
    pend := none, phase := .idle, done := true, err := false, errCode := .none, ovr := false, resp := .ack }

/-- After a word write that was dropped (R205). -/
def droppedState (s : State) : State := { s with ovr := true, resp := .ack }

/-! ### Who moves -/

/-- The next step is the core's turn. -/
def coreMoves (s : State) : Prop := s.inputs = [] ∨ ∃ rest, s.inputs = .coreTurn :: rest

/-- The next step completes a command with opcode `op`. -/
def completes (op : Op) (s : State) : Prop :=
  coreMoves s ∧ s.phase = .busy ∧ ∃ p, s.pend = some p ∧ pendingOp p = op

/-- The next step is a word write to `r` that the core performs. -/
def hostWrites (r : Reg) (s : State) : Prop :=
  s.phase = .idle ∧ ∃ a rest v, s.inputs = .access a :: rest ∧ decodeAccess s.platform.base a = .ok (.wr r v)

/-- The next step is a write to CMD that finds the core idle: an issued command (R200). -/
def issues (s : State) : Prop :=
  s.phase = .idle ∧ ∃ a rest w, s.inputs = .access a :: rest ∧ decodeAccess s.platform.base a = .ok (decodeWord w)

/-- The next step is a word write to the window that finds the core BUSY: a dropped write (R205). -/
def drops (s : State) : Prop :=
  s.phase = .busy ∧ ∃ a rest i, s.inputs = .access a :: rest ∧ decodeAccess s.platform.base a = .ok i ∧ ∀ r, i ≠ .rd r

/-- The next step asserts reset. -/
def resets (s : State) : Prop := ∃ rest, s.inputs = .resetAssert :: rest

/-- The core is present, out of reset and idle. -/
def ready (s : State) : Prop := s.platform.present = true ∧ s.inReset = false ∧ s.phase = .idle

/-! ### The invariant -/

/-- The latch was taken from the live registers and passed the check (R40, R201). -/
def latchedFrom (s : State) (p : Pending) : Prop :=
  p = snapshot (pendingOp p) (pendingLen p) s ∧ check (.cmd (pendingOp p) (pendingLen p)) s.kv = .none

/-- What holds between two steps of every run: R43, with R40 for the latch, R26 for DONE, R29 and R39 for the
round-key RAM, and R250 for the time reset is asserted. -/
structure Inv (s : State) : Prop where
  /-- KV = 0 implies KSZ = 0 and every RK slot is zero (R43). -/
  noSchedule : s.kv = false → s.ksz = false ∧ s.rk = Vector.replicate 28 0
  /-- KV = 1 means RK holds the schedule of some key of the size KSZ says (R29, R30). -/
  holdsSchedule : s.kv = true → ∃ key, s.rk = expandKey (if s.ksz then 32 else 16) key
  /-- BUSY = 1 if and only if a command is latched (R43). -/
  busyLatched : s.phase = .busy ↔ s.pend ≠ none
  /-- BUSY = 1 implies DONE = 0 (R26, R201). -/
  busyNotDone : s.phase = .busy → s.done = false
  /-- ERR = 1 implies BUSY = 0 and DONE = 1 (R43). -/
  errIdle : s.err = true → s.phase = .idle ∧ s.done = true
  /-- ERRCODE is not 0 if and only if ERR = 1 (R43). -/
  errCodeErr : s.errCode ≠ .none ↔ s.err = true
  /-- The snapshot equals the live registers (R40). -/
  latched : ∀ p, s.pend = some p → latchedFrom s p
  /-- While reset is asserted every piece of state holds its reset value (R250). -/
  heldInReset : s.inReset = true → s = assertReset s

/-- The states runs from reset reach, on every platform and for every order of events. -/
def Reachable (t : State) : Prop :=
  ∃ platform inputs n, Host.Core.run core n { State.reset with platform := platform, inputs := inputs } = .next t

/-! ### What a host may read -/

/-- A latched command without its key material. -/
def pendingPublic : Pending → Pending
  | .expand len _ => .expand len (Vector.replicate 8 0)
  | .encrypt len bin _ ksz => .encrypt len bin (Vector.replicate 28 0) ksz
  | .decrypt len bin _ ksz => .decrypt len bin (Vector.replicate 28 0) ksz
  | .ghashUpdate len tag _ bin => .ghashUpdate len tag (Vector.replicate 4 0) bin
  | .zeroize len => .zeroize len

/-- A state without its key material: KEY, HKEY, RK and their snapshots (R33, R37, R39). -/
def publicPart (s : State) : State :=
  { s with
    key := Vector.replicate 8 0, hkey := Vector.replicate 4 0, rk := Vector.replicate 28 0
    pend := s.pend.map pendingPublic }

end Sys2Proof.Machine
end

