-- ==== Sys2Proof/Certificates/Slice0/Obligations.lean ====
section
/-! DEFINITION. The statements about AES-CORE, from the spec's numbered rules. Every statement holds for every
platform (BASE) and every order of host accesses and completion steps, since both are in the state. -/

open Sys2Proof Sys2Proof.Machine

/-! ### Decoding, encoding, and the step -/

/-- The event at the port that decodes to an instruction runs exactly that instruction, past that event. The decoder
gives well-formed instructions only. R62, R75, R78. -/
def Obligations.StepRunsTheDecodedInstruction : Prop :=
  ∀ (s : State) (a : Access) (rest : List Input) (i : Instr),
    s.platform.present = true → s.inReset = false → s.inputs = .access a :: rest →
    decodeAccess s.platform.base a = .ok i →
    WellFormed i ∧ step s = exec i { s with inputs := rest }

/-- Decoding undoes encoding, for every instruction with every operand; `.wr .cmd v` is the write of the command word
`v`, which decodes to that word's own row. R70, R75, R78. -/
def Obligations.DecodingUndoesEncoding : Prop :=
  ∀ base : Nat,
    (∀ i : Instr, WellFormed i → decodeAccess base (encode base i) = .ok i) ∧
    (∀ v : Word, decodeAccess base (encode base (.wr .cmd v)) = .ok (decodeWord v))

/-- A word decodes to a command with a LEN exactly when it is that command's word. R70, R75. -/
def Obligations.EachCommandHasOneWord : Prop :=
  ∀ (w : Word) (op : Op) (len : Len), decodeCommand w = .cmd op len ↔ w = encodeCommand op len

/-- The two forms of R75: the reserved bits are tested first; and under the mask 0xFFFFC0FF each command has its
match and every other word is illegal. -/
def Obligations.DecodingFollowsTheMaskTable : Prop :=
  ∀ w : Word,
    ((w.extractLsb' 14 18 ≠ 0 ∨ w.extractLsb' 4 4 ≠ 0) → decodeCommand w = .illegal w) ∧
    (w &&& 0xFFFFC0FF = 0x00000001 → decodeCommand w = .cmd .expand (w.extractLsb' 8 6)) ∧
    (w &&& 0xFFFFC0FF = 0x00000002 → decodeCommand w = .cmd .encrypt (w.extractLsb' 8 6)) ∧
    (w &&& 0xFFFFC0FF = 0x00000003 → decodeCommand w = .cmd .decrypt (w.extractLsb' 8 6)) ∧
    (w &&& 0xFFFFC0FF = 0x00000004 → decodeCommand w = .cmd .ghashUpdate (w.extractLsb' 8 6)) ∧
    (w &&& 0xFFFFC0FF = 0x0000000F → decodeCommand w = .cmd .zeroize (w.extractLsb' 8 6)) ∧
    (w &&& 0xFFFFC0FF ≠ 0x00000001 → w &&& 0xFFFFC0FF ≠ 0x00000002 → w &&& 0xFFFFC0FF ≠ 0x00000003 →
      w &&& 0xFFFFC0FF ≠ 0x00000004 → w &&& 0xFFFFC0FF ≠ 0x0000000F → decodeCommand w = .illegal w)

/-- The command words R77 writes out, and the source's negative cases. -/
def Obligations.WrittenCommandWordsDecode : Prop :=
  decodeWord 0x00001001 = .expand 16 ∧ decodeWord 0x00002001 = .expand 32 ∧
  decodeWord 0x00001002 = .encrypt 16 ∧ decodeWord 0x00001003 = .decrypt 16 ∧
  decodeWord 0x00001004 = .ghashUpdate 16 ∧ decodeWord 0x0000000F = .zeroize 0 ∧
  (∀ len : Len, decodeWord (0x0000000F ||| (len.setWidth 32 <<< 8)) = .zeroize len) ∧
  decodeWord 0x00001801 = .expand 24 ∧ decodeWord 0x00000F02 = .encrypt 15 ∧ decodeWord 0x00001102 = .encrypt 17

/-- Where a step stops, and that it goes on everywhere else: without a core (R240), on an access outside the window
(R51), on an access during reset (R250). How it stops there is the model's choice (logs 2, 6, 7). -/
def Obligations.StepStopsOnlyWhereTheSpecIsSilent : Prop :=
  ∀ s : State,
    (s.platform.present = false → step s = .refused .coreAbsent) ∧
    (∀ a rest, s.platform.present = true → s.inputs = .access a :: rest →
      (a.addr < s.platform.base ∨ s.platform.base + 0x80 ≤ a.addr) → step s = .fault .outsideWindow) ∧
    (∀ a rest, s.platform.present = true → s.inputs = .access a :: rest →
      s.platform.base ≤ a.addr → a.addr < s.platform.base + 0x80 → s.inReset = true →
      step s = .refused .accessDuringReset) ∧
    (s.platform.present = true →
      (∀ a rest, s.inputs = .access a :: rest →
        s.platform.base ≤ a.addr ∧ a.addr < s.platform.base + 0x80 ∧ s.inReset = false) →
      ∃ t, step s = .next t)

/-- R54: an access of another size, at another alignment, or a write with some but not all byte enables, gets a bus
error: no state changes, not even OVR, and no data is returned. -/
def Obligations.BusErrorsChangeNothing : Prop :=
  ∀ (s : State) (a : Access) (rest : List Input),
    s.platform.present = true → s.inReset = false → s.inputs = .access a :: rest →
    s.platform.base ≤ a.addr → a.addr < s.platform.base + 0x80 →
    (a.size ≠ .word ∨ (a.addr - s.platform.base) % 4 ≠ 0 ∨ (a.write = true ∧ a.lanes ≠ 0x0 ∧ a.lanes ≠ 0xF)) →
    step s = .next { s with inputs := rest, resp := .busError }

/-- A word handed over by `withFetchWord` is the next step's instruction. The model's own interface (log 1). -/
def Obligations.FetchedWordRuns : Prop :=
  ∀ (s : State) (w : Nat),
    step (s.withFetchWord 32 w) =
      exec (decodeWord (BitVec.ofNat 32 w))
        { s with platform := { s.platform with present := true }, inReset := false }

/-! ### Reading and writing registers -/

/-- What a read of each register returns, and that a read changes nothing else, BUSY or not. -/
def Obligations.ReadsReturnTheRegisterMap : Prop :=
  ∀ s : State,
    exec (.rd .cmd) s = .next { s with resp := .data 0 } ∧
    exec (.rd .status) s = .next { s with resp := .data (statusWord s) } ∧
    (∀ j, exec (.rd (.rsvLow j)) s = .next { s with resp := .data 0 }) ∧
    (∀ j, exec (.rd (.key j)) s = .next { s with resp := .data 0 }) ∧
    (∀ j, exec (.rd (.bin j)) s = .next { s with resp := .data s.bin[j] }) ∧
    (∀ j, exec (.rd (.bout j)) s = .next { s with resp := .data s.bout[j] }) ∧
    (∀ j, exec (.rd (.tag j)) s = .next { s with resp := .data s.tag[j] }) ∧
    (∀ j, exec (.rd (.hkey j)) s = .next { s with resp := .data 0 }) ∧
    (∀ j, exec (.rd (.rsvHigh j)) s = .next { s with resp := .data 0 })

/-- The bits of the word STATUS reads as (R24, R25); the reserved bits 7:6 and 31:11 read 0 (R32). -/
def Obligations.StatusReservedBitsReadZero : Prop :=
  ∀ s : State, ∃ w : Word,
    exec (.rd .status) s = .next { s with resp := .data w } ∧
    w.extractLsb' 6 2 = 0 ∧ w.extractLsb' 11 21 = 0 ∧
    (w.getLsbD 0 = true ↔ s.phase = .busy) ∧ w.getLsbD 1 = s.done ∧ w.getLsbD 2 = s.err ∧ w.getLsbD 3 = s.ovr ∧
    w.getLsbD 4 = s.kv ∧ w.getLsbD 5 = s.ksz ∧ w.extractLsb' 8 3 = errCodeBits s.errCode

/-- What a word write to each register but CMD does while the core is idle. -/
def Obligations.IdleWritesFollowTheRegisterMap : Prop :=
  ∀ (s : State) (v : Word), s.phase = .idle →
    (∀ j, exec (.wr (.key j) v) s = .next { s with key := s.key.set j v, resp := .ack }) ∧
    (∀ j, exec (.wr (.bin j) v) s = .next { s with bin := s.bin.set j v, resp := .ack }) ∧
    (∀ j, exec (.wr (.tag j) v) s = .next { s with tag := s.tag.set j v, resp := .ack }) ∧
    (∀ j, exec (.wr (.hkey j) v) s = .next { s with hkey := s.hkey.set j v, resp := .ack }) ∧
    exec (.wr .status v) s = .next { s with resp := .ack } ∧
    (∀ j, exec (.wr (.bout j) v) s = .next { s with resp := .ack }) ∧
    (∀ j, exec (.wr (.rsvLow j) v) s = .next { s with resp := .ack }) ∧
    (∀ j, exec (.wr (.rsvHigh j) v) s = .next { s with resp := .ack })

/-- A write to CMD is its word's own instruction, idle or BUSY (R23, R200, R205). -/
def Obligations.WriteToCmdRunsItsWord : Prop :=
  ∀ (s : State) (v : Word), exec (.wr .cmd v) s = exec (decodeWord v) s

/-- R205: a word write while BUSY, to CMD or to any register, changes nothing but OVR, the running command completes
as it would have, and a bus-error access does not set OVR. -/
def Obligations.WritesWhileBusyAreDropped : Prop :=
  ∀ s : State, s.phase = .busy →
    (∀ r v, exec (.wr r v) s = .next { s with ovr := true, resp := .ack }) ∧
    (∀ w, exec (decodeWord w) s = .next { s with ovr := true, resp := .ack }) ∧
    coreTurn { s with ovr := true, resp := .ack } = { coreTurn s with ovr := true, resp := .ack } ∧
    (∀ a rest e t, s.inputs = .access a :: rest → decodeAccess s.platform.base a = .error e → step s = .next t →
      t.ovr = s.ovr)

/-- A read of BIN or TAG returns the value last written to that word (R34, R36). -/
def Obligations.ReadAfterWriteReturnsTheValue : Prop :=
  ∀ (s : State) (j : Fin 4) (v : Word), s.phase = .idle →
    (∃ t, exec (.wr (.bin j) v) s = .next t ∧
      ∀ k : Fin 4, exec (.rd (.bin k)) t = .next { t with resp := .data (if k = j then v else s.bin[k]) }) ∧
    (∃ t, exec (.wr (.tag j) v) s = .next t ∧
      ∀ k : Fin 4, exec (.rd (.tag k)) t = .next { t with resp := .data (if k = j then v else s.tag[k]) })

/-- R60: a write to any register but CMD done twice is the write done once, BUSY or not. -/
def Obligations.RegisterWritesAreIdempotent : Prop :=
  ∀ (s t : State) (r : Reg) (v : Word), r ≠ .cmd → exec (.wr r v) s = .next t → exec (.wr r v) t = .next t

/-- R56: the word j of a group is its block's bytes 4j to 4j+3, byte 4j in bits 31:24; so for the key registers. -/
def Obligations.RegisterWordsPackBigEndian : Prop :=
  (∀ (g : Vector Word 4) (j : Fin 4),
    g[j] = ((blockByte (blockOfGroup g) (4 * j)).setWidth 32 <<< 24) |||
      ((blockByte (blockOfGroup g) (4 * j + 1)).setWidth 32 <<< 16) |||
      ((blockByte (blockOfGroup g) (4 * j + 2)).setWidth 32 <<< 8) |||
      (blockByte (blockOfGroup g) (4 * j + 3)).setWidth 32) ∧
  (∀ b : Block, blockOfGroup (groupOfBlock b) = b) ∧
  (∀ (k : Vector Word 8) (j : Fin 8),
    let key : Nat → Byte := fun n => if n < 16 then blockByte (keyLow k) n else blockByte (keyHigh k) (n - 16)
    k[j] = ((key (4 * j)).setWidth 32 <<< 24) ||| ((key (4 * j + 1)).setWidth 32 <<< 16) |||
      ((key (4 * j + 2)).setWidth 32 <<< 8) ||| (key (4 * j + 3)).setWidth 32)

/-! ### Issue, acceptance, rejection -/

/-- R201: an acceptable command, issued while idle, is latched with the registers it reads (R40); nothing else changes
but STATUS and the port's answer. -/
def Obligations.AcceptedCommandsAreLatched : Prop :=
  ∀ (s : State) (len : Len), s.phase = .idle →
    (Acceptable .expand len s.kv → exec (.expand len) s = .next (acceptedState (.expand len s.key) s)) ∧
    (Acceptable .encrypt len s.kv →
      exec (.encrypt len) s = .next (acceptedState (.encrypt len s.bin s.rk s.ksz) s)) ∧
    (Acceptable .decrypt len s.kv →
      exec (.decrypt len) s = .next (acceptedState (.decrypt len s.bin s.rk s.ksz) s)) ∧
    (Acceptable .ghashUpdate len s.kv →
      exec (.ghashUpdate len) s = .next (acceptedState (.ghashUpdate len s.tag s.hkey s.bin) s)) ∧
    (Acceptable .zeroize len s.kv → exec (.zeroize len) s = .next (acceptedState (.zeroize len) s))

/-- R227: a command that is not acceptable, issued while idle, changes nothing but DONE, ERR, ERRCODE and, by the
issue, OVR. -/
def Obligations.RejectedCommandsChangeOnlyStatus : Prop :=
  ∀ s : State, s.phase = .idle →
    (∀ w, exec (.illegal w) s = .next (rejectedState .illegalCommand s)) ∧
    (∀ op len, ¬ Acceptable op len s.kv →
      ∃ e, e ≠ .none ∧ exec (instrOfCommand (.cmd op len)) s = .next (rejectedState e s))

/-- R226, on the fields of the word itself: the first failing check is the one reported, and a word that passes all is
accepted. -/
def Obligations.FirstFailingCheckIsReported : Prop :=
  ∀ (s : State) (w : Word), s.phase = .idle →
    let op := w.extractLsb' 0 4
    let len := w.extractLsb' 8 6
    let illegal := w.extractLsb' 14 18 ≠ 0 ∨ w.extractLsb' 4 4 ≠ 0 ∨ op = 0x0 ∨ (0x5 ≤ op ∧ op ≤ 0xE)
    let badKeySize := op = 0x1 ∧ len ≠ 16 ∧ len ≠ 32
    let badBlockLength := (op = 0x2 ∨ op = 0x3 ∨ op = 0x4) ∧ len ≠ 16
    let noSchedule := (op = 0x2 ∨ op = 0x3) ∧ s.kv = false
    (illegal → exec (decodeWord w) s = .next (rejectedState .illegalCommand s)) ∧
    (¬ illegal → badKeySize → exec (decodeWord w) s = .next (rejectedState .unsupportedKeySize s)) ∧
    (¬ illegal → badBlockLength → exec (decodeWord w) s = .next (rejectedState .invalidBlockLength s)) ∧
    (¬ illegal → ¬ badBlockLength → noSchedule → exec (decodeWord w) s = .next (rejectedState .noSchedule s)) ∧
    (¬ illegal → ¬ badKeySize → ¬ badBlockLength → ¬ noSchedule →
      ∃ p, exec (decodeWord w) s = .next (acceptedState p s))

/-- R228, R229, R230: which command reports which structural error, and the code STATUS shows for it. EXPAND with
another LEN is accepted, so it never reports INVALID_BLOCK_LENGTH. -/
def Obligations.StructuralErrorsHaveTheirCodes : Prop :=
  errCodeBits .unsupportedKeySize = 1 ∧ errCodeBits .invalidBlockLength = 2 ∧ errCodeBits .illegalCommand = 3 ∧
  ∀ (s : State) (len : Len), s.phase = .idle →
    (len ≠ 16 → len ≠ 32 → exec (.expand len) s = .next (rejectedState .unsupportedKeySize s)) ∧
    (len = 16 ∨ len = 32 → exec (.expand len) s = .next (acceptedState (.expand len s.key) s)) ∧
    (len ≠ 16 → exec (.encrypt len) s = .next (rejectedState .invalidBlockLength s)) ∧
    (len ≠ 16 → exec (.decrypt len) s = .next (rejectedState .invalidBlockLength s)) ∧
    (len ≠ 16 → exec (.ghashUpdate len) s = .next (rejectedState .invalidBlockLength s)) ∧
    (∀ w : Word, ((∃ i, i < 32 ∧ (14 ≤ i ∨ (4 ≤ i ∧ i < 8)) ∧ w.getLsbD i = true) ∨
        w.extractLsb' 0 4 = 0x0 ∨ (0x5 ≤ w.extractLsb' 0 4 ∧ w.extractLsb' 0 4 ≤ 0xE)) →
      exec (decodeWord w) s = .next (rejectedState .illegalCommand s))

/-- R231: ENCRYPT and DECRYPT without a schedule report NO_SCHEDULE; so they do after reset and after ZEROIZE. -/
def Obligations.BlockCommandsNeedASchedule : Prop :=
  errCodeBits .noSchedule = 4 ∧
  (∀ s : State, s.phase = .idle → s.kv = false →
    exec (.encrypt 16) s = .next (rejectedState .noSchedule s) ∧
    exec (.decrypt 16) s = .next (rejectedState .noSchedule s)) ∧
  State.reset.kv = false ∧
  (∀ (s : State) (len : Len), s.phase = .busy → s.pend = some (.zeroize len) →
    (coreTurn s).phase = .idle ∧ (coreTurn s).kv = false)

/-- R44, row by row: which event writes which STATUS flag; the other events write none. -/
def Obligations.StatusEventTable : Prop :=
  ∀ s : State,
    (∀ op len, s.phase = .idle → Acceptable op len s.kv →
      ∃ t, exec (instrOfCommand (.cmd op len)) s = .next t ∧
        flagsOf t = { flagsOf s with busy := true, done := false, err := false, ovr := false, errCode := .none }) ∧
    (∀ c e, s.phase = .idle → check c s.kv = e → e ≠ .none →
      ∃ t, exec (instrOfCommand c) s = .next t ∧
        flagsOf t = { flagsOf s with busy := false, done := true, err := true, ovr := false, errCode := e }) ∧
    (∀ len key, s.phase = .busy → s.pend = some (.expand len key) → len = 16 →
      flagsOf (coreTurn s) = { flagsOf s with busy := false, done := true, kv := true, ksz := false }) ∧
    (∀ len key, s.phase = .busy → s.pend = some (.expand len key) → len = 32 →
      flagsOf (coreTurn s) = { flagsOf s with busy := false, done := true, kv := true, ksz := true }) ∧
    (∀ p, s.phase = .busy → s.pend = some p →
      pendingOp p = .encrypt ∨ pendingOp p = .decrypt ∨ pendingOp p = .ghashUpdate →
      flagsOf (coreTurn s) = { flagsOf s with busy := false, done := true }) ∧
    (∀ len, s.phase = .busy → s.pend = some (.zeroize len) →
      flagsOf (coreTurn s) = { flagsOf s with busy := false, done := true, kv := false, ksz := false }) ∧
    (∀ r v, s.phase = .busy → ∃ t, exec (.wr r v) s = .next t ∧ flagsOf t = { flagsOf s with ovr := true }) ∧
    flagsOf (assertReset s) = { busy := false, done := false, err := false, ovr := false, kv := false, ksz := false,
                                errCode := .none } ∧
    (∀ r, ∃ t, exec (.rd r) s = .next t ∧ flagsOf t = flagsOf s) ∧
    (∀ r v, s.phase = .idle → r ≠ .cmd → ∃ t, exec (.wr r v) s = .next t ∧ flagsOf t = flagsOf s) ∧
    (s.phase = .idle → flagsOf (coreTurn s) = flagsOf s) ∧
    flagsOf (busErrorAccess s) = flagsOf s ∧ flagsOf (releaseReset s) = flagsOf s

/-! ### The commands, issued and completed -/

/-- EXPAND: issued while idle with LEN 16 or 32 it is latched, and its completion fills RK with the forward keys of
R137 or R138 and the transformed keys of R144, zeroes the slots past them (R39), sets KV and KSZ and clears KEY
(R145, R146). Nothing else changes. -/
def Obligations.ExpandFillsTheRoundKeyRam : Prop :=
  ∀ (s : State) (len : Len), s.phase = .idle → len = 16 ∨ len = 32 →
    exec (.expand len) s = .next (acceptedState (.expand len s.key) s) ∧
    ∃ rk, coreTurn (acceptedState (.expand len s.key) s) =
        { completedState s with rk := rk, kv := true, ksz := decide (len = 32), key := Vector.replicate 8 0 } ∧
      (len = 16 →
        rkSlot rk 0 = keyLow s.key ∧
        (∀ i, 1 ≤ i → i ≤ 10 → rkSlot rk i = expandStep (rkSlot rk (i - 1)) (rkSlot rk (i - 1)) (rcon i) 3) ∧
        (∀ m, 1 ≤ m → m ≤ 9 → rkSlot rk (10 + m) = invMixColumns (rkSlot rk (10 - m))) ∧
        (∀ j, 20 ≤ j → j ≤ 27 → rkSlot rk j = 0)) ∧
      (len = 32 →
        rkSlot rk 0 = keyLow s.key ∧ rkSlot rk 1 = keyHigh s.key ∧
        (∀ i, 2 ≤ i → i ≤ 14 → i % 2 = 0 →
          rkSlot rk i = expandStep (rkSlot rk (i - 2)) (rkSlot rk (i - 1)) (rcon (i / 2)) 3) ∧
        (∀ i, 2 ≤ i → i ≤ 14 → i % 2 = 1 →
          rkSlot rk i = expandStep (rkSlot rk (i - 2)) (rkSlot rk (i - 1)) 0x00 2) ∧
        (∀ m, 1 ≤ m → m ≤ 13 → rkSlot rk (14 + m) = invMixColumns (rkSlot rk (14 - m))))

/-- ENCRYPT: issued while idle with LEN 16 and a schedule it is latched, and its completion writes to BOUT the block
that the rounds of R160 give for BIN, RK and the round count of KSZ (R162, R165). Nothing else changes. -/
def Obligations.EncryptWritesTheCipherOfBin : Prop :=
  ∀ s : State, s.phase = .idle → s.kv = true →
    exec (.encrypt 16) s = .next (acceptedState (.encrypt 16 s.bin s.rk s.ksz) s) ∧
    ∃ (nr : Nat) (st : Nat → Block), nr = (if s.ksz then 14 else 10) ∧
      st 0 = blockOfGroup s.bin ^^^ rkSlot s.rk 0 ∧
      (∀ r, 1 ≤ r → r ≤ nr - 1 → st r = roundEnc (st (r - 1)) (rkSlot s.rk r)) ∧
      coreTurn (acceptedState (.encrypt 16 s.bin s.rk s.ksz) s) =
        { completedState s with bout := groupOfBlock (roundEncLast (st (nr - 1)) (rkSlot s.rk nr)) }

/-- DECRYPT: issued while idle with LEN 16 and a schedule it is latched, and its completion writes to BOUT the block
that the rounds of R161 give for BIN, RK and the round count of KSZ (R162, R166). Nothing else changes. -/
def Obligations.DecryptWritesTheInverseCipherOfBin : Prop :=
  ∀ s : State, s.phase = .idle → s.kv = true →
    exec (.decrypt 16) s = .next (acceptedState (.decrypt 16 s.bin s.rk s.ksz) s) ∧
    ∃ (nr : Nat) (st : Nat → Block), nr = (if s.ksz then 14 else 10) ∧
      st nr = blockOfGroup s.bin ^^^ rkSlot s.rk nr ∧
      (∀ j, nr + 1 ≤ j → j ≤ 2 * nr - 1 → st j = roundDec (st (j - 1)) (rkSlot s.rk j)) ∧
      coreTurn (acceptedState (.decrypt 16 s.bin s.rk s.ksz) s) =
        { completedState s with bout := groupOfBlock (roundDecLast (st (2 * nr - 1)) (rkSlot s.rk 0)) }

/-- GHASH_UPDATE: issued while idle with LEN 16 it is latched, and its completion writes to TAG the value Z that the
loop of R183 gives for TAG xor BIN and HKEY (R185, R186). Nothing else changes. -/
def Obligations.GhashUpdateWritesTheNextTag : Prop :=
  ∀ s : State, s.phase = .idle →
    exec (.ghashUpdate 16) s = .next (acceptedState (.ghashUpdate 16 s.tag s.hkey s.bin) s) ∧
    ∃ (x : Block) (z v : Nat → Block), x = blockOfGroup s.tag ^^^ blockOfGroup s.bin ∧
      z 0 = 0 ∧ v 0 = blockOfGroup s.hkey ∧
      (∀ i, i < 128 → z (i + 1) = if x.getLsbD (127 - i) then z i ^^^ v i else z i) ∧
      (∀ i, i < 128 → v (i + 1) = if (v i).getLsbD 0 then (v i >>> 1) ^^^ ((0xE1 : Block) <<< 120) else v i >>> 1) ∧
      coreTurn (acceptedState (.ghashUpdate 16 s.tag s.hkey s.bin) s) =
        { completedState s with tag := groupOfBlock (z 128) }

/-- R207: ZEROIZE, with any LEN and with or without a schedule, is accepted while idle, and its completion clears the
round-key RAM, kv, ksz and every data register. -/
def Obligations.ZeroizeClearsEverything : Prop :=
  ∀ (s : State) (len : Len), s.phase = .idle →
    exec (.zeroize len) s = .next (acceptedState (.zeroize len) s) ∧
    coreTurn (acceptedState (.zeroize len) s) =
      { completedState s with
        rk := Vector.replicate 28 0, kv := false, ksz := false
        key := Vector.replicate 8 0, bin := Vector.replicate 4 0, bout := Vector.replicate 4 0
        tag := Vector.replicate 4 0, hkey := Vector.replicate 4 0 }

/-- R147: the schedule depends on LEN and the key bytes alone: not on RK, TAG, HKEY, BIN or BOUT, and with LEN = 16 not
on KEY4..KEY7. -/
def Obligations.ExpandDependsOnTheKeyAlone : Prop :=
  ∀ (s₁ s₂ : State) (len : Len), s₁.phase = .idle → s₂.phase = .idle → len = 16 ∨ len = 32 →
    (∀ j : Fin 8, (j.val < 4 ∨ len = 32) → s₁.key[j] = s₂.key[j]) →
    ∃ t₁ t₂, exec (.expand len) s₁ = .next t₁ ∧ exec (.expand len) s₂ = .next t₂ ∧
      (coreTurn t₁).rk = (coreTurn t₂).rk

/-- R259: the key is consumed, so a second EXPAND without a write to KEY expands the all-zero key. -/
def Obligations.SecondExpandUsesTheZeroKey : Prop :=
  ∀ (s : State) (len len' : Len), s.phase = .idle → len = 16 ∨ len = 32 → len' = 16 ∨ len' = 32 →
    ∃ t u, exec (.expand len) s = .next t ∧ exec (.expand len') (coreTurn t) = .next u ∧
      (coreTurn u).rk = expandKey len' (Vector.replicate 8 0)

/-- The corner cases of R186, and R253 for the reset state. -/
def Obligations.GhashUpdateCornerCases : Prop :=
  (∀ s : State, s.phase = .idle → ∃ t, exec (.ghashUpdate 16) s = .next t ∧
    (blockOfGroup s.hkey = 0 → blockOfGroup (coreTurn t).tag = 0) ∧
    (s.bin = s.tag → blockOfGroup (coreTurn t).tag = 0) ∧
    (blockOfGroup s.tag = 0 → blockOfGroup s.hkey = (0x80 : Block) <<< 120 → (coreTurn t).tag = s.bin)) ∧
  State.reset.hkey = Vector.replicate 4 0

/-! ### The core's step, ordering, and results -/

/-- With the core's turn first the step is the core's: an idle core does nothing, and a BUSY core with a command
latched becomes idle and DONE, with nothing latched and ERR, ERRCODE and OVR unchanged (R202, R203, R252). That the
step is the core's with no event waiting too is the model's own choice (log 1, DESIGN CHOICE; log 9, DEDUCED). -/
def Obligations.CompletionIsTheCoresOnlyStep : Prop :=
  ∀ s : State, s.platform.present = true →
    (∀ rest, s.inputs = .coreTurn :: rest → step s = .next (coreTurn { s with inputs := rest })) ∧
    (s.inputs = [] → step s = .next (coreTurn s)) ∧
    (s.phase = .idle → coreTurn s = s) ∧
    (∀ p, s.phase = .busy → s.pend = some p →
      (coreTurn s).phase = .idle ∧ (coreTurn s).pend = none ∧ (coreTurn s).done = true ∧
      (coreTurn s).err = s.err ∧ (coreTurn s).errCode = s.errCode ∧ (coreTurn s).ovr = s.ovr)

/-- R61, R204, R206: while BUSY, a host access leaves every register, RK and the latch as they were; only OVR and the
port's answer may change. -/
def Obligations.AccessesWhileBusySeeOldResults : Prop :=
  ∀ (s t : State) (a : Access) (rest : List Input),
    s.phase = .busy → s.inputs = .access a :: rest → step s = .next t →
    t = { s with inputs := rest, ovr := t.ovr, resp := t.resp } ∧ (a.write = false → t.ovr = s.ovr)

/-- R64: a STATUS read that returns BUSY = 0 comes after the completion of every accepted command. -/
def Obligations.PolledIdleMeansComplete : Prop :=
  ∀ s : State, Inv s → ∃ w : Word,
    exec (.rd .status) s = .next { s with resp := .data w } ∧ (w.getLsbD 0 = false ↔ s.pend = none)

/-- R232: a word write to any register and the completion, in both orders. Before the completion the write is dropped
and sets OVR; after it the write is performed. A write to a register other than CMD leaves everything else, the
command's results among it, the same in both orders but for OVR. -/
def Obligations.WriteAndCompletionInEitherOrder : Prop :=
  ∀ (s : State) (p : Pending) (r : Reg) (v : Word),
    s.platform.present = true → s.inReset = false → s.phase = .busy → s.pend = some p →
    ∃ t u,
      Host.Core.run core 2
        { s with inputs := [.access (writeAccess s.platform.base r v), .coreTurn] } = .next t ∧
      Host.Core.run core 2
        { s with inputs := [.coreTurn, .access (writeAccess s.platform.base r v)] } = .next u ∧
      t = { coreTurn s with inputs := [], ovr := true, resp := .ack } ∧
      u = { writeReg r v (coreTurn s) with inputs := [], resp := .ack } ∧
      (r ≠ .cmd →
        u.ovr = s.ovr ∧ flagsOf u = { flagsOf t with ovr := s.ovr } ∧ u.rk = t.rk ∧ u.bout = t.bout ∧
        u.pend = none ∧ t.pend = none ∧
        ((∀ j, r ≠ .key j) → u.key = t.key) ∧ (∀ j, r = .key j → u.key = t.key.set j v) ∧
        ((∀ j, r ≠ .bin j) → u.bin = t.bin) ∧ (∀ j, r = .bin j → u.bin = t.bin.set j v) ∧
        ((∀ j, r ≠ .tag j) → u.tag = t.tag) ∧ (∀ j, r = .tag j → u.tag = t.tag.set j v) ∧
        ((∀ j, r ≠ .hkey j) → u.hkey = t.hkey) ∧ (∀ j, r = .hkey j → u.hkey = t.hkey.set j v))

/-- R202, R263: an accepted command completes after any number of host accesses, and neither their number nor what they
are changes its results. The last step, with no event waiting, is the core's by the model's own choice (log 1, DESIGN
CHOICE; log 9, DEDUCED and unsafe: it rests on the fairness R202 assumes). -/
def Obligations.CompletionFollowsAnyAccesses : Prop :=
  ∀ (s : State) (p : Pending) (accesses : List Access),
    s.platform.present = true → s.inReset = false → s.phase = .busy → s.pend = some p →
    s.inputs = accesses.map .access →
    (∀ a ∈ accesses, s.platform.base ≤ a.addr ∧ a.addr < s.platform.base + 0x80) →
    ∃ t, Host.Core.run core (accesses.length + 1) s = .next t ∧
      t = { coreTurn s with inputs := [], ovr := t.ovr, resp := t.resp } ∧ t.phase = .idle ∧ t.done = true

/-- R187: a stream of GHASH_UPDATE commands leaves in TAG the chained value, however many STATUS reads each command
takes to complete. A POLL line that carries this number is the model's own form of the loop of R79 (log 17, DESIGN
CHOICE). -/
def Obligations.GhashStreamChains : Prop :=
  ∀ (s : State) (blocks : List (Block × Nat)),
    ready s →
    s.inputs = programInputs s.platform.base
      (blocks.flatMap fun b => [.wrblk .bin b.1, .cmd .ghashUpdate 16, .poll b.2]) →
    ∃ t, Host.Core.run core s.inputs.length s = .next t ∧
      blockOfGroup t.tag =
        blocks.foldl (fun tag b => ghashUpdate tag (blockOfGroup s.hkey) b.1) (blockOfGroup s.tag) ∧
      t.hkey = s.hkey ∧ t.phase = .idle

/-- R209: over one schedule, after any sequence of ENCRYPT and DECRYPT commands, a further one gives its block the
result it gives alone. A job is (encrypt?, block, reads of STATUS until it completes); the POLL line that carries the
number of reads is the model's own form of the loop of R79 (log 17, DESIGN CHOICE). -/
def Obligations.ScheduleIsSharedByCommands : Prop :=
  ∀ (s : State) (jobs : List (Bool × Block × Nat)) (job : Bool × Block × Nat),
    ready s → s.kv = true →
    s.inputs = programInputs s.platform.base
      ((jobs ++ [job]).flatMap fun b =>
        [.wrblk .bin b.2.1, .cmd (if b.1 then .encrypt else .decrypt) 16, .poll b.2.2]) →
    ∃ t, Host.Core.run core s.inputs.length s = .next t ∧ t.rk = s.rk ∧ t.kv = true ∧ t.ksz = s.ksz ∧
      blockOfGroup t.bout =
        (if job.1 then cipher (roundCount s.ksz) s.rk job.2.1 else invCipher (roundCount s.ksz) s.rk job.2.1)

/-! ### Reset, invariants, whole-machine rules -/

/-- R42: the reset value of every piece of state. -/
def Obligations.ResetValuesAreZero : Prop :=
  (∀ r : Reg, readReg r State.reset = 0) ∧
  State.reset.key = Vector.replicate 8 0 ∧ State.reset.bin = Vector.replicate 4 0 ∧
  State.reset.bout = Vector.replicate 4 0 ∧ State.reset.tag = Vector.replicate 4 0 ∧
  State.reset.hkey = Vector.replicate 4 0 ∧ (∀ j, rkSlot State.reset.rk j = 0) ∧
  flagsOf State.reset = { busy := false, done := false, err := false, ovr := false, kv := false, ksz := false,
                          errCode := .none } ∧
  State.reset.phase = .idle ∧ State.reset.pend = none

/-- R250: asserting reset, in any phase, puts every piece of state to its reset value and abandons a BUSY command. Only
the model's own fields differ from `State.reset`: the platform, the events still to come, and that reset is asserted. -/
def Obligations.ResetClearsAnyState : Prop :=
  ∀ (s : State) (rest : List Input), s.platform.present = true → s.inputs = .resetAssert :: rest →
    step s = .next { State.reset with platform := s.platform, inputs := rest, inReset := true }

/-- The invariant holds in the reset state, on every platform and before every sequence of events. -/
def Obligations.InvariantHoldsAtReset : Prop :=
  ∀ platform inputs, Inv { State.reset with platform := platform, inputs := inputs }

/-- Every step, of the host, of the core or of the reset input, keeps the invariant. -/
def Obligations.EveryStepKeepsTheInvariant : Prop :=
  ∀ s t : State, Inv s → step s = .next t → Inv t

/-- R43, over every state a run from reset reaches, on every platform and for every sequence of events. -/
def Obligations.ReachableStatesMeetTheStatedInvariants : Prop :=
  ∀ t : State, Reachable t →
    (t.kv = false → t.ksz = false ∧ ∀ j, j < 28 → rkSlot t.rk j = 0) ∧
    (t.kv = true → t.ksz = false → ∀ j, 20 ≤ j → j ≤ 27 → rkSlot t.rk j = 0) ∧
    (busy t = true ↔ t.phase = .busy ∧ t.pend ≠ none) ∧
    (t.err = true → busy t = false ∧ t.done = true) ∧
    (t.errCode ≠ .none ↔ t.err = true)

/-- R29, R30, R33 to R37, R39: which step may change which register, for every instruction and every event. -/
def Obligations.RegistersChangeOnlyByTheirWriters : Prop :=
  ∀ s t : State, step s = .next t →
    (t.rk ≠ s.rk ∨ t.kv ≠ s.kv ∨ t.ksz ≠ s.ksz → completes .expand s ∨ completes .zeroize s ∨ resets s) ∧
    (t.key ≠ s.key → (∃ j, hostWrites (.key j) s) ∨ completes .expand s ∨ completes .zeroize s ∨ resets s) ∧
    (t.bin ≠ s.bin → (∃ j, hostWrites (.bin j) s) ∨ completes .zeroize s ∨ resets s) ∧
    (t.bout ≠ s.bout → completes .encrypt s ∨ completes .decrypt s ∨ completes .zeroize s ∨ resets s) ∧
    (t.tag ≠ s.tag → (∃ j, hostWrites (.tag j) s) ∨ completes .ghashUpdate s ∨ completes .zeroize s ∨ resets s) ∧
    (t.hkey ≠ s.hkey → (∃ j, hostWrites (.hkey j) s) ∨ completes .zeroize s ∨ resets s)

/-- R26, R27, R28, R31, R233: which step may change which STATUS flag, for every instruction and every event. ERR and
ERRCODE keep the last rejection until the next issued command, and OVR stays set until then. -/
def Obligations.FlagsChangeOnlyByTheirEvents : Prop :=
  ∀ s t : State, step s = .next t →
    (t.phase ≠ s.phase → issues s ∨ (∃ op, completes op s) ∨ resets s) ∧
    (t.done ≠ s.done → issues s ∨ (∃ op, completes op s) ∨ resets s) ∧
    (t.err ≠ s.err ∨ t.errCode ≠ s.errCode → issues s ∨ resets s) ∧
    (t.ovr = true → s.ovr = false → drops s) ∧
    (t.ovr = false → s.ovr = true → issues s ∨ resets s) ∧
    (t.kv ≠ s.kv ∨ t.ksz ≠ s.ksz → completes .expand s ∨ completes .zeroize s ∨ resets s)

/-- R33, R37, R39, R238: two states that differ only in key material answer every event alike and stay so, but for the
completions that compute a block or a tag from it. -/
def Obligations.KeyMaterialIsNotReadable : Prop :=
  ∀ s₁ s₂ t₁ : State, publicPart s₁ = publicPart s₂ →
    ¬ completes .encrypt s₁ → ¬ completes .decrypt s₁ → ¬ completes .ghashUpdate s₁ →
    step s₁ = .next t₁ → ∃ t₂, step s₂ = .next t₂ ∧ publicPart t₁ = publicPart t₂

/-- No step changes the platform's parameters. They stand in the state by the model's choice (log 2). -/
def Obligations.PlatformIsConstant : Prop :=
  ∀ s t : State, step s = .next t → t.platform = s.platform

/-! ### The functions -/

/-- R163: over the schedule of any key of either size, decryption undoes encryption and encryption undoes
decryption. -/
def Obligations.DecryptionInvertsEncryption : Prop :=
  ∀ (key : Vector Word 8) (b : Block),
    (invCipher 10 (expandKey 16 key) (cipher 10 (expandKey 16 key) b) = b ∧
      cipher 10 (expandKey 16 key) (invCipher 10 (expandKey 16 key) b) = b) ∧
    (invCipher 14 (expandKey 32 key) (cipher 14 (expandKey 32 key) b) = b ∧
      cipher 14 (expandKey 32 key) (invCipher 14 (expandKey 32 key) b) = b)

/-- R139: the forward keys follow the word recurrence, W[n] being word n mod 4 of forward key n div 4. -/
def Obligations.ForwardKeysFollowTheWordRecurrence : Prop :=
  (∀ (key : Block) (n : Nat), 4 ≤ n → n < 44 →
    let w := fun n => blockWord (expand128 key (n / 4)) (n % 4)
    w n = w (n - 4) ^^^
      (if n % 4 = 0 then rotWord (subWord (w (n - 1))) ^^^ wordOfBytes (rcon (n / 4)) 0 0 0 else w (n - 1))) ∧
  (∀ (key0 key1 : Block) (n : Nat), 8 ≤ n → n < 60 →
    let w := fun n => blockWord (expand256 key0 key1 (n / 4)) (n % 4)
    w n = w (n - 8) ^^^
      (if n % 8 = 0 then rotWord (subWord (w (n - 1))) ^^^ wordOfBytes (rcon (n / 8)) 0 0 0
       else if n % 8 = 4 then subWord (w (n - 1)) else w (n - 1)))

/-- The table of S is the affine map of the inverse (R95, R96), and Sinv is its inverse (R97). -/
def Obligations.SubstitutionTablesAreInverse : Prop :=
  ∀ a : Byte, sbox a = affine (ginv a) ∧ sboxInv (sbox a) = a ∧ sbox (sboxInv a) = a

/-- R94: inv(0) = 0, and inv(a) is the unique byte whose product with a is 1; and the example. -/
def Obligations.FieldInverseIsUnique : Prop :=
  ginv 0 = 0 ∧ ginv 0x53 = 0xCA ∧ ∀ a : Byte, a ≠ 0 → ∀ b : Byte, gmul a b = 0x01 ↔ b = ginv a

/-- The laws of R93: multiplication in GF(2^8) is commutative, associative, distributes over xor, has the identity 1
and the zero 0. -/
def Obligations.ByteMultiplicationIsAFieldProduct : Prop :=
  ∀ a b c : Byte,
    gmul a b = gmul b a ∧ gmul (gmul a b) c = gmul a (gmul b c) ∧ gmul a (b ^^^ c) = gmul a b ^^^ gmul a c ∧
    gmul a 0x01 = a ∧ gmul a 0 = 0

/-- R101, R103, R104: the inverse row rotation, the inverse column mixing and the key xor undo the forward ones, and
conversely. -/
def Obligations.RoundStepsAreInvertible : Prop :=
  ∀ b k : Block,
    invShiftRows (shiftRows b) = b ∧ shiftRows (invShiftRows b) = b ∧
    invMixColumns (mixColumns b) = b ∧ mixColumns (invMixColumns b) = b ∧
    invSubBytes (subBytes b) = b ∧ subBytes (invSubBytes b) = b ∧
    addRoundKey (addRoundKey b k) k = b

/-- R110: InvMixColumns is linear over xor. -/
def Obligations.InvMixColumnsIsLinear : Prop :=
  ∀ a b : Block, invMixColumns (a ^^^ b) = invMixColumns a ^^^ invMixColumns b

/-- R109: byte substitution and row rotation commute, and so do their inverses. -/
def Obligations.SubstitutionAndRotationCommute : Prop :=
  ∀ b : Block, subBytes (shiftRows b) = shiftRows (subBytes b) ∧
    invSubBytes (invShiftRows b) = invShiftRows (invSubBytes b)

/-- R184: GFMul is commutative, associative, distributes over xor, has the identity E and gives 0 for 0; and the two
examples. -/
def Obligations.BlockMultiplicationIsAFieldProduct : Prop :=
  (∀ x y z : Block,
    gfMul x y = gfMul y x ∧ gfMul (gfMul x y) z = gfMul x (gfMul y z) ∧
    gfMul x (y ^^^ z) = gfMul x y ^^^ gfMul x z ∧
    gfMul x ((0x80 : Block) <<< 120) = x ∧ gfMul ((0x80 : Block) <<< 120) x = x ∧ gfMul x 0 = 0 ∧ gfMul 0 x = 0) ∧
  gfMul ((0x40 : Block) <<< 120) ((0x40 : Block) <<< 120) = (0x20 : Block) <<< 120 ∧
  gfMul 1 ((0x40 : Block) <<< 120) = (0xE1 : Block) <<< 120

/-- R180, R182, R184: with the coefficient of x^i read from bit 127 - i, GFMul is the product of polynomials over GF(2)
modulo x^128 + x^7 + x^2 + x + 1. -/
def Obligations.BlockMultiplicationIsPolynomialProduct : Prop :=
  let poly : Block → Polynomial (ZMod 2) := fun b =>
    ∑ i ∈ Finset.range 128, if b.getLsbD (127 - i) then Polynomial.X ^ i else 0
  ∀ x y : Block, ∃ q : Polynomial (ZMod 2),
    poly x * poly y = poly (gfMul x y) +
      q * (Polynomial.X ^ 128 + Polynomial.X ^ 7 + Polynomial.X ^ 2 + Polynomial.X + 1)
end

