-- ==== Sys2Proof/Laws/Block.lean ====
section
/-! SUPPORT. Bytes, words and register groups: each view of a block determines it, and xor acts on each alone. -/

namespace Sys2Proof.Machine

theorem blockWord_blockOfWords (a b c d : Word) :
    blockWord (blockOfWords a b c d) 0 = a ∧ blockWord (blockOfWords a b c d) 1 = b ∧
    blockWord (blockOfWords a b c d) 2 = c ∧ blockWord (blockOfWords a b c d) 3 = d := by
  refine ⟨?_, ?_, ?_, ?_⟩ <;>
  · apply BitVec.eq_of_getLsbD_eq
    intro i hi
    simp only [blockWord, blockOfWords, BitVec.getLsbD_extractLsb', BitVec.getLsbD_append]
    interval_cases i <;> simp

theorem wordByte_wordOfBytes (a b c d : Byte) :
    wordByte (wordOfBytes a b c d) 0 = a ∧ wordByte (wordOfBytes a b c d) 1 = b ∧
    wordByte (wordOfBytes a b c d) 2 = c ∧ wordByte (wordOfBytes a b c d) 3 = d := by
  refine ⟨?_, ?_, ?_, ?_⟩ <;>
  · apply BitVec.eq_of_getLsbD_eq
    intro i hi
    simp only [wordByte, wordOfBytes, BitVec.getLsbD_extractLsb', BitVec.getLsbD_append]
    interval_cases i <;> simp

theorem blockByte_eq (b : Block) {k : Nat} (h : k < 16) : blockByte b k = wordByte (blockWord b (k / 4)) (k % 4) := by
  apply BitVec.eq_of_getLsbD_eq
  intro i hi
  simp only [blockByte, wordByte, blockWord, BitVec.getLsbD_extractLsb']
  rw [show 8 * (15 - k) + i = 32 * (3 - k / 4) + (8 * (3 - k % 4) + i) by omega]
  have : 8 * (3 - k % 4) + i < 32 := by omega
  simp [hi, this]

theorem blockByte_blockOfBytes (f : Nat → Byte) {k : Nat} (h : k < 16) : blockByte (blockOfBytes f) k = f k := by
  rw [blockByte_eq _ h]
  interval_cases k <;> simp [blockOfBytes, blockWord_blockOfWords, wordByte_wordOfBytes]

theorem block_ext_words {a b : Block} (h : ∀ j < 4, blockWord a j = blockWord b j) : a = b := by
  apply BitVec.eq_of_getLsbD_eq
  intro i hi
  have := congrArg (·.getLsbD (i % 32)) (h (3 - i / 32) (by omega))
  simp only [blockWord, BitVec.getLsbD_extractLsb'] at this
  rw [show 32 * (3 - (3 - i / 32)) + i % 32 = i by omega] at this
  simpa [show i % 32 < 32 by omega] using this

theorem word_ext_bytes {a b : Word} (h : ∀ j < 4, wordByte a j = wordByte b j) : a = b := by
  apply BitVec.eq_of_getLsbD_eq
  intro i hi
  have := congrArg (·.getLsbD (i % 8)) (h (3 - i / 8) (by omega))
  simp only [wordByte, BitVec.getLsbD_extractLsb'] at this
  rw [show 8 * (3 - (3 - i / 8)) + i % 8 = i by omega] at this
  simpa [show i % 8 < 8 by omega] using this

theorem block_ext {a b : Block} (h : ∀ k < 16, blockByte a k = blockByte b k) : a = b := by
  refine block_ext_words fun j hj => word_ext_bytes fun k hk => ?_
  have := h (4 * j + k) (by omega)
  rw [blockByte_eq a (by omega), blockByte_eq b (by omega)] at this
  rwa [show (4 * j + k) / 4 = j by omega, show (4 * j + k) % 4 = k by omega] at this

theorem blockOfWords_blockWord (b : Block) :
    blockOfWords (blockWord b 0) (blockWord b 1) (blockWord b 2) (blockWord b 3) = b := by
  refine block_ext_words fun j hj => ?_
  obtain ⟨h0, h1, h2, h3⟩ := blockWord_blockOfWords (blockWord b 0) (blockWord b 1) (blockWord b 2) (blockWord b 3)
  interval_cases j <;> assumption

theorem blockOfGroup_groupOfBlock (b : Block) : blockOfGroup (groupOfBlock b) = b := blockOfWords_blockWord b

theorem groupOfBlock_blockOfGroup (g : Vector Word 4) : groupOfBlock (blockOfGroup g) = g := by
  obtain ⟨h0, h1, h2, h3⟩ := blockWord_blockOfWords g[0] g[1] g[2] g[3]
  ext i hi
  interval_cases i <;> simp [groupOfBlock, blockOfGroup, h0, h1, h2, h3]

theorem blockByte_xor (a b : Block) (k : Nat) : blockByte (a ^^^ b) k = blockByte a k ^^^ blockByte b k := by
  simp [blockByte, BitVec.extractLsb'_xor]

theorem blockWord_xor (a b : Block) (j : Nat) : blockWord (a ^^^ b) j = blockWord a j ^^^ blockWord b j := by
  simp [blockWord, BitVec.extractLsb'_xor]

theorem wordByte_xor (a b : Word) (k : Nat) : wordByte (a ^^^ b) k = wordByte a k ^^^ wordByte b k := by
  simp [wordByte, BitVec.extractLsb'_xor]

theorem wordOfBytes_xor (a b c d a' b' c' d' : Byte) :
    wordOfBytes (a ^^^ a') (b ^^^ b') (c ^^^ c') (d ^^^ d') = wordOfBytes a b c d ^^^ wordOfBytes a' b' c' d' := by
  refine word_ext_bytes fun j hj => ?_
  rw [wordByte_xor]
  interval_cases j <;> simp [wordByte_wordOfBytes]

theorem blockOfWords_xor (a b c d a' b' c' d' : Word) :
    blockOfWords (a ^^^ a') (b ^^^ b') (c ^^^ c') (d ^^^ d') = blockOfWords a b c d ^^^ blockOfWords a' b' c' d' := by
  refine block_ext_words fun j hj => ?_
  rw [blockWord_xor]
  interval_cases j <;> simp [blockWord_blockOfWords]
end Sys2Proof.Machine
end

