-- ==== Sys2Proof/Laws/Decode.lean ====
section
/-! SUPPORT. Command words by field, register numbers, and the accesses the encoder builds. -/

namespace Sys2Proof

theorem decodeCommand_encodeCommand (op : Op) (len : Len) : decodeCommand (encodeCommand op len) = .cmd op len := by
  cases op <;> revert len <;> decide

/-- A word is its four fields (R70). -/
theorem word_fields (w : Word) :
    w = ((w.extractLsb' 14 18 ++ w.extractLsb' 8 6) ++ w.extractLsb' 4 4) ++ w.extractLsb' 0 4 := by
  apply BitVec.eq_of_getLsbD_eq
  intro i hi
  simp only [BitVec.getLsbD_append, BitVec.getLsbD_extractLsb']
  interval_cases i <;> simp

theorem opOfCode_opCode (op : Op) : opOfCode (opCode op) = some op := by cases op <;> rfl

theorem opCode_of_opOfCode {c : BitVec 4} {op : Op} (h : opOfCode c = some op) : c = opCode op := by
  revert c; cases op <;> decide

/-- What the mask of R75 says of the fields. -/
theorem mask_fields {w : Word} {c : BitVec 4} (h : w &&& 0xFFFFC0FF = c.setWidth 32) :
    w.extractLsb' 14 18 = 0 ∧ w.extractLsb' 4 4 = 0 ∧ w.extractLsb' 0 4 = c := by
  have h1 := congrArg (BitVec.extractLsb' 14 18) h
  have h2 := congrArg (BitVec.extractLsb' 4 4) h
  have h3 := congrArg (BitVec.extractLsb' 0 4) h
  rw [BitVec.extractLsb'_and] at h1 h2 h3
  have e1 : BitVec.extractLsb' 14 18 (0xFFFFC0FF : Word) = BitVec.allOnes 18 := by decide
  have e2 : BitVec.extractLsb' 4 4 (0xFFFFC0FF : Word) = BitVec.allOnes 4 := by decide
  have e3 : BitVec.extractLsb' 0 4 (0xFFFFC0FF : Word) = BitVec.allOnes 4 := by decide
  rw [e1, BitVec.and_allOnes] at h1
  rw [e2, BitVec.and_allOnes] at h2
  rw [e3, BitVec.and_allOnes] at h3
  rw [h1, h2, h3]
  clear h h1 h2 h3 e1 e2 e3
  revert c; decide

theorem regOfIndex_regIndex (r : Reg) : regOfIndex (regIndex r) = r := by
  cases r <;> first | rfl | (rename_i j; revert j; decide)

theorem regIndex_lt (r : Reg) : regIndex r < 32 := by
  cases r <;> simp [regIndex] <;> omega

/-- A write to CMD decodes to its word's row, any other to `.wr`. -/
theorem decodeAccess_write (base : Nat) (r : Reg) (v : Word) :
    decodeAccess base (writeAccess base r v) = .ok (match r with | .cmd => decodeWord v | r => .wr r v) := by
  have := regIndex_lt r
  unfold decodeAccess writeAccess
  rw [if_neg (by simp only [windowBytes]; omega)]
  simp [regOfIndex_regIndex]
  cases r <;> rfl

theorem decodeAccess_read (base : Nat) (r : Reg) : decodeAccess base (readAccess base r) = .ok (.rd r) := by
  have := regIndex_lt r
  unfold decodeAccess readAccess
  rw [if_neg (by simp only [windowBytes]; omega)]
  simp [regOfIndex_regIndex]

/-- What a decoded access can be: a read, a write to a register but CMD, or the row of a command word. -/
theorem decodeAccess_cases {base : Nat} {a : Access} {i : Instr} (h : decodeAccess base a = .ok i) :
    (∃ r, i = .rd r) ∨ (∃ r v, i = .wr r v ∧ r ≠ .cmd) ∨ ∃ w, i = decodeWord w := by
  unfold decodeAccess at h
  split at h
  · cases h
  · split at h
    · cases h
    · split at h
      · cases h
      · split at h
        · split at h
          · cases h
          · split at h
            · injection h with h; exact .inr (.inr ⟨_, h.symm⟩)
            · rename_i hne; injection h with h; exact .inr (.inl ⟨_, _, h.symm, fun hh => by simp_all⟩)
        · injection h with h; exact .inl ⟨_, h.symm⟩

end Sys2Proof
end

