-- ==== Sys2Proof/Laws/State.lean ====
section
/-! SUPPORT. One lemma for each field and each named update, so that no proof unfolds a record update. -/

namespace Sys2Proof.Machine

variable (s : State)

/-! ### respond -/

@[simp] theorem respond_key (r : Response) : (respond r s).key = s.key := rfl
@[simp] theorem respond_bin (r : Response) : (respond r s).bin = s.bin := rfl
@[simp] theorem respond_bout (r : Response) : (respond r s).bout = s.bout := rfl
@[simp] theorem respond_tag (r : Response) : (respond r s).tag = s.tag := rfl
@[simp] theorem respond_hkey (r : Response) : (respond r s).hkey = s.hkey := rfl
@[simp] theorem respond_rk (r : Response) : (respond r s).rk = s.rk := rfl
@[simp] theorem respond_kv (r : Response) : (respond r s).kv = s.kv := rfl
@[simp] theorem respond_ksz (r : Response) : (respond r s).ksz = s.ksz := rfl
@[simp] theorem respond_done (r : Response) : (respond r s).done = s.done := rfl
@[simp] theorem respond_err (r : Response) : (respond r s).err = s.err := rfl
@[simp] theorem respond_ovr (r : Response) : (respond r s).ovr = s.ovr := rfl
@[simp] theorem respond_errCode (r : Response) : (respond r s).errCode = s.errCode := rfl
@[simp] theorem respond_phase (r : Response) : (respond r s).phase = s.phase := rfl
@[simp] theorem respond_pend (r : Response) : (respond r s).pend = s.pend := rfl
@[simp] theorem respond_platform (r : Response) : (respond r s).platform = s.platform := rfl
@[simp] theorem respond_inReset (r : Response) : (respond r s).inReset = s.inReset := rfl
@[simp] theorem respond_resp (r : Response) : (respond r s).resp = r := rfl
@[simp] theorem respond_inputs (r : Response) : (respond r s).inputs = s.inputs := rfl

/-! ### dropWrite -/

@[simp] theorem dropWrite_key : (dropWrite s).key = s.key := rfl
@[simp] theorem dropWrite_bin : (dropWrite s).bin = s.bin := rfl
@[simp] theorem dropWrite_bout : (dropWrite s).bout = s.bout := rfl
@[simp] theorem dropWrite_tag : (dropWrite s).tag = s.tag := rfl
@[simp] theorem dropWrite_hkey : (dropWrite s).hkey = s.hkey := rfl
@[simp] theorem dropWrite_rk : (dropWrite s).rk = s.rk := rfl
@[simp] theorem dropWrite_kv : (dropWrite s).kv = s.kv := rfl
@[simp] theorem dropWrite_ksz : (dropWrite s).ksz = s.ksz := rfl
@[simp] theorem dropWrite_done : (dropWrite s).done = s.done := rfl
@[simp] theorem dropWrite_err : (dropWrite s).err = s.err := rfl
@[simp] theorem dropWrite_ovr : (dropWrite s).ovr = true := rfl
@[simp] theorem dropWrite_errCode : (dropWrite s).errCode = s.errCode := rfl
@[simp] theorem dropWrite_phase : (dropWrite s).phase = s.phase := rfl
@[simp] theorem dropWrite_pend : (dropWrite s).pend = s.pend := rfl
@[simp] theorem dropWrite_platform : (dropWrite s).platform = s.platform := rfl
@[simp] theorem dropWrite_inReset : (dropWrite s).inReset = s.inReset := rfl
@[simp] theorem dropWrite_resp : (dropWrite s).resp = s.resp := rfl
@[simp] theorem dropWrite_inputs : (dropWrite s).inputs = s.inputs := rfl

/-! ### clearOvr -/

@[simp] theorem clearOvr_key : (clearOvr s).key = s.key := rfl
@[simp] theorem clearOvr_bin : (clearOvr s).bin = s.bin := rfl
@[simp] theorem clearOvr_bout : (clearOvr s).bout = s.bout := rfl
@[simp] theorem clearOvr_tag : (clearOvr s).tag = s.tag := rfl
@[simp] theorem clearOvr_hkey : (clearOvr s).hkey = s.hkey := rfl
@[simp] theorem clearOvr_rk : (clearOvr s).rk = s.rk := rfl
@[simp] theorem clearOvr_kv : (clearOvr s).kv = s.kv := rfl
@[simp] theorem clearOvr_ksz : (clearOvr s).ksz = s.ksz := rfl
@[simp] theorem clearOvr_done : (clearOvr s).done = s.done := rfl
@[simp] theorem clearOvr_err : (clearOvr s).err = s.err := rfl
@[simp] theorem clearOvr_ovr : (clearOvr s).ovr = false := rfl
@[simp] theorem clearOvr_errCode : (clearOvr s).errCode = s.errCode := rfl
@[simp] theorem clearOvr_phase : (clearOvr s).phase = s.phase := rfl
@[simp] theorem clearOvr_pend : (clearOvr s).pend = s.pend := rfl
@[simp] theorem clearOvr_platform : (clearOvr s).platform = s.platform := rfl
@[simp] theorem clearOvr_inReset : (clearOvr s).inReset = s.inReset := rfl
@[simp] theorem clearOvr_resp : (clearOvr s).resp = s.resp := rfl
@[simp] theorem clearOvr_inputs : (clearOvr s).inputs = s.inputs := rfl

/-! ### reject -/

@[simp] theorem reject_key (e : ErrCode) : (reject e s).key = s.key := rfl
@[simp] theorem reject_bin (e : ErrCode) : (reject e s).bin = s.bin := rfl
@[simp] theorem reject_bout (e : ErrCode) : (reject e s).bout = s.bout := rfl
@[simp] theorem reject_tag (e : ErrCode) : (reject e s).tag = s.tag := rfl
@[simp] theorem reject_hkey (e : ErrCode) : (reject e s).hkey = s.hkey := rfl
@[simp] theorem reject_rk (e : ErrCode) : (reject e s).rk = s.rk := rfl
@[simp] theorem reject_kv (e : ErrCode) : (reject e s).kv = s.kv := rfl
@[simp] theorem reject_ksz (e : ErrCode) : (reject e s).ksz = s.ksz := rfl
@[simp] theorem reject_done (e : ErrCode) : (reject e s).done = true := rfl
@[simp] theorem reject_err (e : ErrCode) : (reject e s).err = true := rfl
@[simp] theorem reject_ovr (e : ErrCode) : (reject e s).ovr = s.ovr := rfl
@[simp] theorem reject_errCode (e : ErrCode) : (reject e s).errCode = e := rfl
@[simp] theorem reject_phase (e : ErrCode) : (reject e s).phase = s.phase := rfl
@[simp] theorem reject_pend (e : ErrCode) : (reject e s).pend = s.pend := rfl
@[simp] theorem reject_platform (e : ErrCode) : (reject e s).platform = s.platform := rfl
@[simp] theorem reject_inReset (e : ErrCode) : (reject e s).inReset = s.inReset := rfl
@[simp] theorem reject_resp (e : ErrCode) : (reject e s).resp = s.resp := rfl
@[simp] theorem reject_inputs (e : ErrCode) : (reject e s).inputs = s.inputs := rfl

/-! ### latch -/

@[simp] theorem latch_key (p : Pending) : (latch p s).key = s.key := rfl
@[simp] theorem latch_bin (p : Pending) : (latch p s).bin = s.bin := rfl
@[simp] theorem latch_bout (p : Pending) : (latch p s).bout = s.bout := rfl
@[simp] theorem latch_tag (p : Pending) : (latch p s).tag = s.tag := rfl
@[simp] theorem latch_hkey (p : Pending) : (latch p s).hkey = s.hkey := rfl
@[simp] theorem latch_rk (p : Pending) : (latch p s).rk = s.rk := rfl
@[simp] theorem latch_kv (p : Pending) : (latch p s).kv = s.kv := rfl
@[simp] theorem latch_ksz (p : Pending) : (latch p s).ksz = s.ksz := rfl
@[simp] theorem latch_done (p : Pending) : (latch p s).done = false := rfl
@[simp] theorem latch_err (p : Pending) : (latch p s).err = false := rfl
@[simp] theorem latch_ovr (p : Pending) : (latch p s).ovr = s.ovr := rfl
@[simp] theorem latch_errCode (p : Pending) : (latch p s).errCode = .none := rfl
@[simp] theorem latch_phase (p : Pending) : (latch p s).phase = .busy := rfl
@[simp] theorem latch_pend (p : Pending) : (latch p s).pend = some p := rfl
@[simp] theorem latch_platform (p : Pending) : (latch p s).platform = s.platform := rfl
@[simp] theorem latch_inReset (p : Pending) : (latch p s).inReset = s.inReset := rfl
@[simp] theorem latch_resp (p : Pending) : (latch p s).resp = s.resp := rfl
@[simp] theorem latch_inputs (p : Pending) : (latch p s).inputs = s.inputs := rfl

/-! ### accept -/

@[simp] theorem accept_key (op : Op) (len : Len) : (accept op len s).key = s.key := rfl
@[simp] theorem accept_bin (op : Op) (len : Len) : (accept op len s).bin = s.bin := rfl
@[simp] theorem accept_bout (op : Op) (len : Len) : (accept op len s).bout = s.bout := rfl
@[simp] theorem accept_tag (op : Op) (len : Len) : (accept op len s).tag = s.tag := rfl
@[simp] theorem accept_hkey (op : Op) (len : Len) : (accept op len s).hkey = s.hkey := rfl
@[simp] theorem accept_rk (op : Op) (len : Len) : (accept op len s).rk = s.rk := rfl
@[simp] theorem accept_kv (op : Op) (len : Len) : (accept op len s).kv = s.kv := rfl
@[simp] theorem accept_ksz (op : Op) (len : Len) : (accept op len s).ksz = s.ksz := rfl
@[simp] theorem accept_done (op : Op) (len : Len) : (accept op len s).done = false := rfl
@[simp] theorem accept_err (op : Op) (len : Len) : (accept op len s).err = false := rfl
@[simp] theorem accept_ovr (op : Op) (len : Len) : (accept op len s).ovr = s.ovr := rfl
@[simp] theorem accept_errCode (op : Op) (len : Len) : (accept op len s).errCode = .none := rfl
@[simp] theorem accept_phase (op : Op) (len : Len) : (accept op len s).phase = .busy := rfl
@[simp] theorem accept_pend (op : Op) (len : Len) : (accept op len s).pend = some (snapshot op len s) := rfl
@[simp] theorem accept_platform (op : Op) (len : Len) : (accept op len s).platform = s.platform := rfl
@[simp] theorem accept_inReset (op : Op) (len : Len) : (accept op len s).inReset = s.inReset := rfl
@[simp] theorem accept_resp (op : Op) (len : Len) : (accept op len s).resp = s.resp := rfl
@[simp] theorem accept_inputs (op : Op) (len : Len) : (accept op len s).inputs = s.inputs := rfl

/-! ### finish -/

@[simp] theorem finish_key : (finish s).key = s.key := rfl
@[simp] theorem finish_bin : (finish s).bin = s.bin := rfl
@[simp] theorem finish_bout : (finish s).bout = s.bout := rfl
@[simp] theorem finish_tag : (finish s).tag = s.tag := rfl
@[simp] theorem finish_hkey : (finish s).hkey = s.hkey := rfl
@[simp] theorem finish_rk : (finish s).rk = s.rk := rfl
@[simp] theorem finish_kv : (finish s).kv = s.kv := rfl
@[simp] theorem finish_ksz : (finish s).ksz = s.ksz := rfl
@[simp] theorem finish_done : (finish s).done = true := rfl
@[simp] theorem finish_err : (finish s).err = s.err := rfl
@[simp] theorem finish_ovr : (finish s).ovr = s.ovr := rfl
@[simp] theorem finish_errCode : (finish s).errCode = s.errCode := rfl
@[simp] theorem finish_phase : (finish s).phase = .idle := rfl
@[simp] theorem finish_pend : (finish s).pend = none := rfl
@[simp] theorem finish_platform : (finish s).platform = s.platform := rfl
@[simp] theorem finish_inReset : (finish s).inReset = s.inReset := rfl
@[simp] theorem finish_resp : (finish s).resp = s.resp := rfl
@[simp] theorem finish_inputs : (finish s).inputs = s.inputs := rfl

/-! ### completeExpand -/

@[simp] theorem completeExpand_key (len : Len) (k : Vector Word 8) : (completeExpand len k s).key = Vector.replicate 8 0 := rfl
@[simp] theorem completeExpand_bin (len : Len) (k : Vector Word 8) : (completeExpand len k s).bin = s.bin := rfl
@[simp] theorem completeExpand_bout (len : Len) (k : Vector Word 8) : (completeExpand len k s).bout = s.bout := rfl
@[simp] theorem completeExpand_tag (len : Len) (k : Vector Word 8) : (completeExpand len k s).tag = s.tag := rfl
@[simp] theorem completeExpand_hkey (len : Len) (k : Vector Word 8) : (completeExpand len k s).hkey = s.hkey := rfl
@[simp] theorem completeExpand_rk (len : Len) (k : Vector Word 8) : (completeExpand len k s).rk = expandKey len k := rfl
@[simp] theorem completeExpand_kv (len : Len) (k : Vector Word 8) : (completeExpand len k s).kv = true := rfl
@[simp] theorem completeExpand_ksz (len : Len) (k : Vector Word 8) : (completeExpand len k s).ksz = decide (len ≠ 16) := rfl
@[simp] theorem completeExpand_done (len : Len) (k : Vector Word 8) : (completeExpand len k s).done = s.done := rfl
@[simp] theorem completeExpand_err (len : Len) (k : Vector Word 8) : (completeExpand len k s).err = s.err := rfl
@[simp] theorem completeExpand_ovr (len : Len) (k : Vector Word 8) : (completeExpand len k s).ovr = s.ovr := rfl
@[simp] theorem completeExpand_errCode (len : Len) (k : Vector Word 8) : (completeExpand len k s).errCode = s.errCode := rfl
@[simp] theorem completeExpand_phase (len : Len) (k : Vector Word 8) : (completeExpand len k s).phase = s.phase := rfl
@[simp] theorem completeExpand_pend (len : Len) (k : Vector Word 8) : (completeExpand len k s).pend = s.pend := rfl
@[simp] theorem completeExpand_platform (len : Len) (k : Vector Word 8) : (completeExpand len k s).platform = s.platform := rfl
@[simp] theorem completeExpand_inReset (len : Len) (k : Vector Word 8) : (completeExpand len k s).inReset = s.inReset := rfl
@[simp] theorem completeExpand_resp (len : Len) (k : Vector Word 8) : (completeExpand len k s).resp = s.resp := rfl
@[simp] theorem completeExpand_inputs (len : Len) (k : Vector Word 8) : (completeExpand len k s).inputs = s.inputs := rfl

/-! ### completeEncrypt -/

@[simp] theorem completeEncrypt_key (b : Vector Word 4) (rk : Vector Block 28) (z : Bool) : (completeEncrypt b rk z s).key = s.key := rfl
@[simp] theorem completeEncrypt_bin (b : Vector Word 4) (rk : Vector Block 28) (z : Bool) : (completeEncrypt b rk z s).bin = s.bin := rfl
@[simp] theorem completeEncrypt_bout (b : Vector Word 4) (rk : Vector Block 28) (z : Bool) : (completeEncrypt b rk z s).bout = groupOfBlock (cipher (roundCount z) rk (blockOfGroup b)) := rfl
@[simp] theorem completeEncrypt_tag (b : Vector Word 4) (rk : Vector Block 28) (z : Bool) : (completeEncrypt b rk z s).tag = s.tag := rfl
@[simp] theorem completeEncrypt_hkey (b : Vector Word 4) (rk : Vector Block 28) (z : Bool) : (completeEncrypt b rk z s).hkey = s.hkey := rfl
@[simp] theorem completeEncrypt_rk (b : Vector Word 4) (rk : Vector Block 28) (z : Bool) : (completeEncrypt b rk z s).rk = s.rk := rfl
@[simp] theorem completeEncrypt_kv (b : Vector Word 4) (rk : Vector Block 28) (z : Bool) : (completeEncrypt b rk z s).kv = s.kv := rfl
@[simp] theorem completeEncrypt_ksz (b : Vector Word 4) (rk : Vector Block 28) (z : Bool) : (completeEncrypt b rk z s).ksz = s.ksz := rfl
@[simp] theorem completeEncrypt_done (b : Vector Word 4) (rk : Vector Block 28) (z : Bool) : (completeEncrypt b rk z s).done = s.done := rfl
@[simp] theorem completeEncrypt_err (b : Vector Word 4) (rk : Vector Block 28) (z : Bool) : (completeEncrypt b rk z s).err = s.err := rfl
@[simp] theorem completeEncrypt_ovr (b : Vector Word 4) (rk : Vector Block 28) (z : Bool) : (completeEncrypt b rk z s).ovr = s.ovr := rfl
@[simp] theorem completeEncrypt_errCode (b : Vector Word 4) (rk : Vector Block 28) (z : Bool) : (completeEncrypt b rk z s).errCode = s.errCode := rfl
@[simp] theorem completeEncrypt_phase (b : Vector Word 4) (rk : Vector Block 28) (z : Bool) : (completeEncrypt b rk z s).phase = s.phase := rfl
@[simp] theorem completeEncrypt_pend (b : Vector Word 4) (rk : Vector Block 28) (z : Bool) : (completeEncrypt b rk z s).pend = s.pend := rfl
@[simp] theorem completeEncrypt_platform (b : Vector Word 4) (rk : Vector Block 28) (z : Bool) : (completeEncrypt b rk z s).platform = s.platform := rfl
@[simp] theorem completeEncrypt_inReset (b : Vector Word 4) (rk : Vector Block 28) (z : Bool) : (completeEncrypt b rk z s).inReset = s.inReset := rfl
@[simp] theorem completeEncrypt_resp (b : Vector Word 4) (rk : Vector Block 28) (z : Bool) : (completeEncrypt b rk z s).resp = s.resp := rfl
@[simp] theorem completeEncrypt_inputs (b : Vector Word 4) (rk : Vector Block 28) (z : Bool) : (completeEncrypt b rk z s).inputs = s.inputs := rfl

/-! ### completeDecrypt -/

@[simp] theorem completeDecrypt_key (b : Vector Word 4) (rk : Vector Block 28) (z : Bool) : (completeDecrypt b rk z s).key = s.key := rfl
@[simp] theorem completeDecrypt_bin (b : Vector Word 4) (rk : Vector Block 28) (z : Bool) : (completeDecrypt b rk z s).bin = s.bin := rfl
@[simp] theorem completeDecrypt_bout (b : Vector Word 4) (rk : Vector Block 28) (z : Bool) : (completeDecrypt b rk z s).bout = groupOfBlock (invCipher (roundCount z) rk (blockOfGroup b)) := rfl
@[simp] theorem completeDecrypt_tag (b : Vector Word 4) (rk : Vector Block 28) (z : Bool) : (completeDecrypt b rk z s).tag = s.tag := rfl
@[simp] theorem completeDecrypt_hkey (b : Vector Word 4) (rk : Vector Block 28) (z : Bool) : (completeDecrypt b rk z s).hkey = s.hkey := rfl
@[simp] theorem completeDecrypt_rk (b : Vector Word 4) (rk : Vector Block 28) (z : Bool) : (completeDecrypt b rk z s).rk = s.rk := rfl
@[simp] theorem completeDecrypt_kv (b : Vector Word 4) (rk : Vector Block 28) (z : Bool) : (completeDecrypt b rk z s).kv = s.kv := rfl
@[simp] theorem completeDecrypt_ksz (b : Vector Word 4) (rk : Vector Block 28) (z : Bool) : (completeDecrypt b rk z s).ksz = s.ksz := rfl
@[simp] theorem completeDecrypt_done (b : Vector Word 4) (rk : Vector Block 28) (z : Bool) : (completeDecrypt b rk z s).done = s.done := rfl
@[simp] theorem completeDecrypt_err (b : Vector Word 4) (rk : Vector Block 28) (z : Bool) : (completeDecrypt b rk z s).err = s.err := rfl
@[simp] theorem completeDecrypt_ovr (b : Vector Word 4) (rk : Vector Block 28) (z : Bool) : (completeDecrypt b rk z s).ovr = s.ovr := rfl
@[simp] theorem completeDecrypt_errCode (b : Vector Word 4) (rk : Vector Block 28) (z : Bool) : (completeDecrypt b rk z s).errCode = s.errCode := rfl
@[simp] theorem completeDecrypt_phase (b : Vector Word 4) (rk : Vector Block 28) (z : Bool) : (completeDecrypt b rk z s).phase = s.phase := rfl
@[simp] theorem completeDecrypt_pend (b : Vector Word 4) (rk : Vector Block 28) (z : Bool) : (completeDecrypt b rk z s).pend = s.pend := rfl
@[simp] theorem completeDecrypt_platform (b : Vector Word 4) (rk : Vector Block 28) (z : Bool) : (completeDecrypt b rk z s).platform = s.platform := rfl
@[simp] theorem completeDecrypt_inReset (b : Vector Word 4) (rk : Vector Block 28) (z : Bool) : (completeDecrypt b rk z s).inReset = s.inReset := rfl
@[simp] theorem completeDecrypt_resp (b : Vector Word 4) (rk : Vector Block 28) (z : Bool) : (completeDecrypt b rk z s).resp = s.resp := rfl
@[simp] theorem completeDecrypt_inputs (b : Vector Word 4) (rk : Vector Block 28) (z : Bool) : (completeDecrypt b rk z s).inputs = s.inputs := rfl

/-! ### completeGhashUpdate -/

@[simp] theorem completeGhashUpdate_key (t h b : Vector Word 4) : (completeGhashUpdate t h b s).key = s.key := rfl
@[simp] theorem completeGhashUpdate_bin (t h b : Vector Word 4) : (completeGhashUpdate t h b s).bin = s.bin := rfl
@[simp] theorem completeGhashUpdate_bout (t h b : Vector Word 4) : (completeGhashUpdate t h b s).bout = s.bout := rfl
@[simp] theorem completeGhashUpdate_tag (t h b : Vector Word 4) : (completeGhashUpdate t h b s).tag = groupOfBlock (ghashUpdate (blockOfGroup t) (blockOfGroup h) (blockOfGroup b)) := rfl
@[simp] theorem completeGhashUpdate_hkey (t h b : Vector Word 4) : (completeGhashUpdate t h b s).hkey = s.hkey := rfl
@[simp] theorem completeGhashUpdate_rk (t h b : Vector Word 4) : (completeGhashUpdate t h b s).rk = s.rk := rfl
@[simp] theorem completeGhashUpdate_kv (t h b : Vector Word 4) : (completeGhashUpdate t h b s).kv = s.kv := rfl
@[simp] theorem completeGhashUpdate_ksz (t h b : Vector Word 4) : (completeGhashUpdate t h b s).ksz = s.ksz := rfl
@[simp] theorem completeGhashUpdate_done (t h b : Vector Word 4) : (completeGhashUpdate t h b s).done = s.done := rfl
@[simp] theorem completeGhashUpdate_err (t h b : Vector Word 4) : (completeGhashUpdate t h b s).err = s.err := rfl
@[simp] theorem completeGhashUpdate_ovr (t h b : Vector Word 4) : (completeGhashUpdate t h b s).ovr = s.ovr := rfl
@[simp] theorem completeGhashUpdate_errCode (t h b : Vector Word 4) : (completeGhashUpdate t h b s).errCode = s.errCode := rfl
@[simp] theorem completeGhashUpdate_phase (t h b : Vector Word 4) : (completeGhashUpdate t h b s).phase = s.phase := rfl
@[simp] theorem completeGhashUpdate_pend (t h b : Vector Word 4) : (completeGhashUpdate t h b s).pend = s.pend := rfl
@[simp] theorem completeGhashUpdate_platform (t h b : Vector Word 4) : (completeGhashUpdate t h b s).platform = s.platform := rfl
@[simp] theorem completeGhashUpdate_inReset (t h b : Vector Word 4) : (completeGhashUpdate t h b s).inReset = s.inReset := rfl
@[simp] theorem completeGhashUpdate_resp (t h b : Vector Word 4) : (completeGhashUpdate t h b s).resp = s.resp := rfl
@[simp] theorem completeGhashUpdate_inputs (t h b : Vector Word 4) : (completeGhashUpdate t h b s).inputs = s.inputs := rfl

/-! ### completeZeroize -/

@[simp] theorem completeZeroize_key : (completeZeroize s).key = Vector.replicate 8 0 := rfl
@[simp] theorem completeZeroize_bin : (completeZeroize s).bin = Vector.replicate 4 0 := rfl
@[simp] theorem completeZeroize_bout : (completeZeroize s).bout = Vector.replicate 4 0 := rfl
@[simp] theorem completeZeroize_tag : (completeZeroize s).tag = Vector.replicate 4 0 := rfl
@[simp] theorem completeZeroize_hkey : (completeZeroize s).hkey = Vector.replicate 4 0 := rfl
@[simp] theorem completeZeroize_rk : (completeZeroize s).rk = Vector.replicate 28 0 := rfl
@[simp] theorem completeZeroize_kv : (completeZeroize s).kv = false := rfl
@[simp] theorem completeZeroize_ksz : (completeZeroize s).ksz = false := rfl
@[simp] theorem completeZeroize_done : (completeZeroize s).done = s.done := rfl
@[simp] theorem completeZeroize_err : (completeZeroize s).err = s.err := rfl
@[simp] theorem completeZeroize_ovr : (completeZeroize s).ovr = s.ovr := rfl
@[simp] theorem completeZeroize_errCode : (completeZeroize s).errCode = s.errCode := rfl
@[simp] theorem completeZeroize_phase : (completeZeroize s).phase = s.phase := rfl
@[simp] theorem completeZeroize_pend : (completeZeroize s).pend = s.pend := rfl
@[simp] theorem completeZeroize_platform : (completeZeroize s).platform = s.platform := rfl
@[simp] theorem completeZeroize_inReset : (completeZeroize s).inReset = s.inReset := rfl
@[simp] theorem completeZeroize_resp : (completeZeroize s).resp = s.resp := rfl
@[simp] theorem completeZeroize_inputs : (completeZeroize s).inputs = s.inputs := rfl

/-! ### busErrorAccess -/

@[simp] theorem busErrorAccess_key : (busErrorAccess s).key = s.key := rfl
@[simp] theorem busErrorAccess_bin : (busErrorAccess s).bin = s.bin := rfl
@[simp] theorem busErrorAccess_bout : (busErrorAccess s).bout = s.bout := rfl
@[simp] theorem busErrorAccess_tag : (busErrorAccess s).tag = s.tag := rfl
@[simp] theorem busErrorAccess_hkey : (busErrorAccess s).hkey = s.hkey := rfl
@[simp] theorem busErrorAccess_rk : (busErrorAccess s).rk = s.rk := rfl
@[simp] theorem busErrorAccess_kv : (busErrorAccess s).kv = s.kv := rfl
@[simp] theorem busErrorAccess_ksz : (busErrorAccess s).ksz = s.ksz := rfl
@[simp] theorem busErrorAccess_done : (busErrorAccess s).done = s.done := rfl
@[simp] theorem busErrorAccess_err : (busErrorAccess s).err = s.err := rfl
@[simp] theorem busErrorAccess_ovr : (busErrorAccess s).ovr = s.ovr := rfl
@[simp] theorem busErrorAccess_errCode : (busErrorAccess s).errCode = s.errCode := rfl
@[simp] theorem busErrorAccess_phase : (busErrorAccess s).phase = s.phase := rfl
@[simp] theorem busErrorAccess_pend : (busErrorAccess s).pend = s.pend := rfl
@[simp] theorem busErrorAccess_platform : (busErrorAccess s).platform = s.platform := rfl
@[simp] theorem busErrorAccess_inReset : (busErrorAccess s).inReset = s.inReset := rfl
@[simp] theorem busErrorAccess_resp : (busErrorAccess s).resp = .busError := rfl
@[simp] theorem busErrorAccess_inputs : (busErrorAccess s).inputs = s.inputs := rfl

/-! ### assertReset -/

@[simp] theorem assertReset_key : (assertReset s).key = Vector.replicate 8 0 := rfl
@[simp] theorem assertReset_bin : (assertReset s).bin = Vector.replicate 4 0 := rfl
@[simp] theorem assertReset_bout : (assertReset s).bout = Vector.replicate 4 0 := rfl
@[simp] theorem assertReset_tag : (assertReset s).tag = Vector.replicate 4 0 := rfl
@[simp] theorem assertReset_hkey : (assertReset s).hkey = Vector.replicate 4 0 := rfl
@[simp] theorem assertReset_rk : (assertReset s).rk = Vector.replicate 28 0 := rfl
@[simp] theorem assertReset_kv : (assertReset s).kv = false := rfl
@[simp] theorem assertReset_ksz : (assertReset s).ksz = false := rfl
@[simp] theorem assertReset_done : (assertReset s).done = false := rfl
@[simp] theorem assertReset_err : (assertReset s).err = false := rfl
@[simp] theorem assertReset_ovr : (assertReset s).ovr = false := rfl
@[simp] theorem assertReset_errCode : (assertReset s).errCode = .none := rfl
@[simp] theorem assertReset_phase : (assertReset s).phase = .idle := rfl
@[simp] theorem assertReset_pend : (assertReset s).pend = none := rfl
@[simp] theorem assertReset_platform : (assertReset s).platform = s.platform := rfl
@[simp] theorem assertReset_inReset : (assertReset s).inReset = true := rfl
@[simp] theorem assertReset_resp : (assertReset s).resp = .none := rfl
@[simp] theorem assertReset_inputs : (assertReset s).inputs = s.inputs := rfl

/-! ### releaseReset -/

@[simp] theorem releaseReset_key : (releaseReset s).key = s.key := rfl
@[simp] theorem releaseReset_bin : (releaseReset s).bin = s.bin := rfl
@[simp] theorem releaseReset_bout : (releaseReset s).bout = s.bout := rfl
@[simp] theorem releaseReset_tag : (releaseReset s).tag = s.tag := rfl
@[simp] theorem releaseReset_hkey : (releaseReset s).hkey = s.hkey := rfl
@[simp] theorem releaseReset_rk : (releaseReset s).rk = s.rk := rfl
@[simp] theorem releaseReset_kv : (releaseReset s).kv = s.kv := rfl
@[simp] theorem releaseReset_ksz : (releaseReset s).ksz = s.ksz := rfl
@[simp] theorem releaseReset_done : (releaseReset s).done = s.done := rfl
@[simp] theorem releaseReset_err : (releaseReset s).err = s.err := rfl
@[simp] theorem releaseReset_ovr : (releaseReset s).ovr = s.ovr := rfl
@[simp] theorem releaseReset_errCode : (releaseReset s).errCode = s.errCode := rfl
@[simp] theorem releaseReset_phase : (releaseReset s).phase = s.phase := rfl
@[simp] theorem releaseReset_pend : (releaseReset s).pend = s.pend := rfl
@[simp] theorem releaseReset_platform : (releaseReset s).platform = s.platform := rfl
@[simp] theorem releaseReset_inReset : (releaseReset s).inReset = false := rfl
@[simp] theorem releaseReset_resp : (releaseReset s).resp = s.resp := rfl
@[simp] theorem releaseReset_inputs : (releaseReset s).inputs = s.inputs := rfl

end Sys2Proof.Machine
end

