-- ==== Sys2Proof/Laws/Ops.lean ====
section
/-! SUPPORT. What each shared operation and each instruction can do, said once. -/

namespace Sys2Proof.Machine

theorem exec_next (i : Instr) (s : State) : ∃ t, exec i s = .next t := by
  cases i <;> exact ⟨_, rfl⟩

theorem busWrite_busy {s : State} (h : s.phase = .busy) (f : State → State) :
    busWrite f s = droppedState s := by
  simp [busWrite, h, respond, dropWrite, droppedState]

theorem busWrite_idle {s : State} (h : s.phase = .idle) (f : State → State) :
    busWrite f s = respond .ack (f s) := by
  simp [busWrite, h]

theorem exec_command (c : Command) (s : State) :
    exec (instrOfCommand c) s = .next (busWrite (issue c) s) := by
  cases c with
  | illegal w => rfl
  | cmd op len => cases op <;> rfl

theorem exec_decodeWord (v : Word) (s : State) : exec (decodeWord v) s = exec (.wr .cmd v) s :=
  exec_command (decodeCommand v) s

theorem check_none_iff (op : Op) (len : Len) (kv : Bool) :
    check (.cmd op len) kv = .none ↔ Acceptable op len kv := by
  cases op <;> cases kv <;> by_cases h16 : len = 16 <;> by_cases h32 : len = 32 <;>
    simp_all [check, Acceptable]

theorem issue_of_acceptable {op : Op} {len : Len} {s : State} (h : Acceptable op len s.kv) :
    issue (.cmd op len) s = accept op len (clearOvr s) := by
  simp [issue, (check_none_iff op len s.kv).2 h]

theorem issue_of_check {c : Command} {s : State} {e : ErrCode} (h : check c s.kv = e) (he : e ≠ .none) :
    issue c s = reject e (clearOvr s) := by
  cases c with
  | illegal w => simp [issue, h]
  | cmd op len =>
    simp only [issue, h]

theorem respond_accept (op : Op) (len : Len) (s : State) :
    respond .ack (accept op len (clearOvr s)) = acceptedState (snapshot op len s) s := by
  cases op <;> rfl

theorem respond_reject (e : ErrCode) (s : State) :
    respond .ack (reject e (clearOvr s)) = rejectedState e s := rfl

theorem exec_acceptable {op : Op} {len : Len} {s : State} (hi : s.phase = .idle) (h : Acceptable op len s.kv) :
    exec (instrOfCommand (.cmd op len)) s = .next (acceptedState (snapshot op len s) s) := by
  rw [exec_command, busWrite_idle hi, issue_of_acceptable h, respond_accept]

theorem exec_rejected {c : Command} {s : State} {e : ErrCode} (hi : s.phase = .idle)
    (h : check c s.kv = e) (he : e ≠ .none) : exec (instrOfCommand c) s = .next (rejectedState e s) := by
  rw [exec_command, busWrite_idle hi, issue_of_check h he, respond_reject]

theorem exec_busy {s : State} (hb : s.phase = .busy) (c : Command) :
    exec (instrOfCommand c) s = .next (droppedState s) := by
  rw [exec_command, busWrite_busy hb]

theorem command_cases (c : Command) (s : State) (hi : s.phase = .idle) :
    (∃ op len, c = .cmd op len ∧ Acceptable op len s.kv ∧
      busWrite (issue c) s = acceptedState (snapshot op len s) s) ∨
    (∃ e, e ≠ .none ∧ check c s.kv = e ∧ busWrite (issue c) s = rejectedState e s) := by
  by_cases he : check c s.kv = .none
  · cases c with
    | illegal w => simp [check] at he
    | cmd op len =>
      have ha := (check_none_iff op len s.kv).1 he
      exact .inl ⟨op, len, rfl, ha, by rw [busWrite_idle hi, issue_of_acceptable ha, respond_accept]⟩
  · exact .inr ⟨_, he, rfl, by rw [busWrite_idle hi, issue_of_check rfl he, respond_reject]⟩

theorem instr_cases (i : Instr) :
    (∃ r, i = .rd r) ∨ (∃ r v, r ≠ .cmd ∧ i = .wr r v) ∨ (∃ c, ∀ s, exec i s = .next (busWrite (issue c) s)) := by
  cases i with
  | rd r => exact .inl ⟨r, rfl⟩
  | wr r v =>
    by_cases h : r = .cmd
    · subst h; exact .inr (.inr ⟨decodeCommand v, fun s => rfl⟩)
    · exact .inr (.inl ⟨r, v, h, rfl⟩)
  | illegal w => exact .inr (.inr ⟨.illegal w, fun s => rfl⟩)
  | expand len => exact .inr (.inr ⟨.cmd .expand len, fun s => rfl⟩)
  | encrypt len => exact .inr (.inr ⟨.cmd .encrypt len, fun s => rfl⟩)
  | decrypt len => exact .inr (.inr ⟨.cmd .decrypt len, fun s => rfl⟩)
  | ghashUpdate len => exact .inr (.inr ⟨.cmd .ghashUpdate len, fun s => rfl⟩)
  | zeroize len => exact .inr (.inr ⟨.cmd .zeroize len, fun s => rfl⟩)

/-- Everything an instruction can do. -/
theorem exec_cases {i : Instr} {s t : State} (h : exec i s = .next t) :
    (∃ r, i = .rd r ∧ t = respond (.data (readReg r s)) s) ∨
    (s.phase = .busy ∧ t = droppedState s) ∨
    (s.phase = .idle ∧ ∃ r v, r ≠ .cmd ∧ i = .wr r v ∧ t = respond .ack (writeReg r v s)) ∨
    (s.phase = .idle ∧ ∃ op len, Acceptable op len s.kv ∧ t = acceptedState (snapshot op len s) s) ∨
    (s.phase = .idle ∧ ∃ e, e ≠ .none ∧ t = rejectedState e s) := by
  obtain ⟨r, rfl⟩ | ⟨r, v, hr, rfl⟩ | ⟨c, hc⟩ := instr_cases i
  · exact .inl ⟨r, rfl, by injection h with h; exact h.symm⟩
  · have h : busWrite (writeReg r v) s = t := by injection h
    cases hp : s.phase with
    | busy => exact .inr (.inl ⟨rfl, by rw [← h, busWrite_busy hp]⟩)
    | idle => exact .inr (.inr (.inl ⟨rfl, r, v, hr, rfl, by rw [← h, busWrite_idle hp]⟩))
  · have h : busWrite (issue c) s = t := by rw [hc s] at h; injection h
    cases hp : s.phase with
    | busy => exact .inr (.inl ⟨rfl, by rw [← h, busWrite_busy hp]⟩)
    | idle =>
      obtain ⟨op, len, rfl, ha, e⟩ | ⟨e, he, -, e'⟩ := command_cases c s hp
      · exact .inr (.inr (.inr (.inl ⟨rfl, op, len, ha, by rw [← h, e]⟩)))
      · exact .inr (.inr (.inr (.inr ⟨rfl, e, he, by rw [← h, e']⟩)))

theorem complete_some {s : State} {p : Pending} (h : s.pend = some p) : complete s = finish (effect p s) := by
  simp [complete, h]

theorem coreTurn_idle {s : State} (h : s.phase = .idle) : coreTurn s = s := by simp [coreTurn, h]
theorem coreTurn_busy {s : State} {p : Pending} (h : s.phase = .busy) (hp : s.pend = some p) :
    coreTurn s = finish (effect p s) := by simp [coreTurn, h, complete, hp]

/-- Everything the core's turn can do. -/
theorem coreTurn_cases (s : State) :
    (s.phase = .idle ∧ coreTurn s = s) ∨
    (s.phase = .busy ∧ s.pend = none ∧ coreTurn s = s) ∨
    (∃ p, s.phase = .busy ∧ s.pend = some p ∧ coreTurn s = finish (effect p s)) := by
  cases h : s.phase with
  | idle => exact .inl ⟨rfl, coreTurn_idle h⟩
  | busy =>
    cases hp : s.pend with
    | none => exact .inr (.inl ⟨rfl, rfl, by simp [coreTurn, h, complete, hp]⟩)
    | some p => exact .inr (.inr ⟨p, rfl, rfl, coreTurn_busy h hp⟩)

end Sys2Proof.Machine
end

