-- ==== Sys2Proof/Laws/PerInstr.lean ====
section
/-! SUPPORT. The family `WordAccess`: every instruction is encoded as one access the core accepts (R53): a word, at an
aligned offset inside the window, with all byte enables if it is a write. -/

namespace Sys2Proof.Laws.WordAccess

def Statement (i : Instr) : Prop :=
  ∀ base : Nat,
    base ≤ (encode base i).addr ∧ (encode base i).addr < base + windowBytes ∧
    ((encode base i).addr - base) % 4 = 0 ∧ (encode base i).size = .word ∧
    ((encode base i).write = true → (encode base i).lanes = 0xF)

theorem of_write (base : Nat) (r : Reg) (v : Word) :
    base ≤ (writeAccess base r v).addr ∧ (writeAccess base r v).addr < base + windowBytes ∧
    ((writeAccess base r v).addr - base) % 4 = 0 ∧ (writeAccess base r v).size = .word ∧
    ((writeAccess base r v).write = true → (writeAccess base r v).lanes = 0xF) := by
  have := regIndex_lt r
  simp only [writeAccess, windowBytes]
  exact ⟨by omega, by omega, by omega, trivial, fun _ => trivial⟩

theorem of_read (base : Nat) (r : Reg) :
    base ≤ (readAccess base r).addr ∧ (readAccess base r).addr < base + windowBytes ∧
    ((readAccess base r).addr - base) % 4 = 0 ∧ (readAccess base r).size = .word ∧
    ((readAccess base r).write = true → (readAccess base r).lanes = 0xF) := by
  have := regIndex_lt r
  simp only [readAccess, windowBytes]
  exact ⟨by omega, by omega, by omega, trivial, fun h => absurd h (by decide)⟩

theorem expand (len : Len) : Statement (.expand len) := fun base => of_write base _ _
theorem encrypt (len : Len) : Statement (.encrypt len) := fun base => of_write base _ _
theorem decrypt (len : Len) : Statement (.decrypt len) := fun base => of_write base _ _
theorem ghashUpdate (len : Len) : Statement (.ghashUpdate len) := fun base => of_write base _ _
theorem zeroize (len : Len) : Statement (.zeroize len) := fun base => of_write base _ _
theorem wr (r : Reg) (v : Word) : Statement (.wr r v) := fun base => of_write base _ _
theorem rd (r : Reg) : Statement (.rd r) := fun base => of_read base _
theorem illegal (w : Word) : Statement (.illegal w) := fun base => of_write base _ _

end Sys2Proof.Laws.WordAccess
end

