-- ==== Sys2Proof/Laws/Primitives.lean ====
section
/-! SUPPORT. Each round step and key-schedule operation, by the bytes or words of its result. -/

namespace Sys2Proof.Machine

theorem blockByte_subBytes (b : Block) {k : Nat} (h : k < 16) : blockByte (subBytes b) k = sbox (blockByte b k) :=
  blockByte_blockOfBytes _ h

theorem blockByte_invSubBytes (b : Block) {k : Nat} (h : k < 16) :
    blockByte (invSubBytes b) k = sboxInv (blockByte b k) :=
  blockByte_blockOfBytes _ h

theorem blockByte_shiftRows (b : Block) {k : Nat} (h : k < 16) :
    blockByte (shiftRows b) k = blockByte b (k % 4 + 4 * ((k / 4 + k % 4) % 4)) :=
  blockByte_blockOfBytes _ h

theorem blockByte_invShiftRows (b : Block) {k : Nat} (h : k < 16) :
    blockByte (invShiftRows b) k = blockByte b (k % 4 + 4 * ((k / 4 + 4 - k % 4) % 4)) :=
  blockByte_blockOfBytes _ h

theorem blockWord_blockMapWords (f : Word → Word) (b : Block) {j : Nat} (h : j < 4) :
    blockWord (blockMapWords f b) j = f (blockWord b j) := by
  obtain ⟨h0, h1, h2, h3⟩ :=
    blockWord_blockOfWords (f (blockWord b 0)) (f (blockWord b 1)) (f (blockWord b 2)) (f (blockWord b 3))
  interval_cases j <;> assumption

theorem blockWord_mixColumns (b : Block) {j : Nat} (h : j < 4) :
    blockWord (mixColumns b) j = mixColumn (blockWord b j) :=
  blockWord_blockMapWords _ _ h

theorem blockWord_invMixColumns (b : Block) {j : Nat} (h : j < 4) :
    blockWord (invMixColumns b) j = invMixColumn (blockWord b j) :=
  blockWord_blockMapWords _ _ h

theorem blockWord_bcast (w : Word) {j : Nat} (h : j < 4) : blockWord (bcast w) j = w := by
  obtain ⟨h0, h1, h2, h3⟩ := blockWord_blockOfWords w w w w
  interval_cases j <;> assumption

theorem blockWord_keyLow (k : Vector Word 8) {j : Nat} (h : j < 4) : blockWord (keyLow k) j = k[j] := by
  obtain ⟨h0, h1, h2, h3⟩ := blockWord_blockOfWords k[0] k[1] k[2] k[3]
  interval_cases j <;> assumption

theorem blockWord_keyHigh (k : Vector Word 8) {j : Nat} (h : j < 4) : blockWord (keyHigh k) j = k[4 + j] := by
  obtain ⟨h0, h1, h2, h3⟩ := blockWord_blockOfWords k[4] k[5] k[6] k[7]
  interval_cases j <;> assumption

/-- The only two lanes of the assist that a rule uses (R134). -/
theorem sel_assist (x : Block) (rc : Byte) :
    sel (assist x rc) 3 = rotWord (subWord (blockWord x 3)) ^^^ wordOfBytes rc 0 0 0 ∧
    sel (assist x rc) 2 = subWord (blockWord x 3) := by
  simp only [sel, assist, blockWord_blockOfWords, and_self]

theorem rkSlot_schedule (nr : Nat) (k : Nat → Block) {j : Nat} (h : j < 28) :
    rkSlot (schedule nr k) j = scheduleSlot nr k j := by
  simp [rkSlot, schedule, Array.getD, h]

theorem rkSlot_replicate (j : Nat) : rkSlot (Vector.replicate 28 0) j = 0 := by
  by_cases h : j < 28 <;> simp [rkSlot, Array.getD, h]

end Sys2Proof.Machine
end

