-- ==== Sys2Proof/Laws/Step.lean ====
section
/-! SUPPORT. What a step can do, said once. -/

namespace Sys2Proof.Machine

theorem step_access {s : State} {a : Access} {rest : List Input} (hp : s.platform.present = true)
    (hi : s.inputs = .access a :: rest) : step s = hostAccess a { s with inputs := rest } := by
  simp [step, hp, hi, takeInput]

theorem step_nil {s : State} (hp : s.platform.present = true) (hi : s.inputs = []) :
    step s = .next (coreTurn s) := by
  simp [step, hp, hi]

theorem step_coreTurn {s : State} {rest : List Input} (hp : s.platform.present = true)
    (hi : s.inputs = .coreTurn :: rest) : step s = .next (coreTurn { s with inputs := rest }) := by
  simp [step, hp, hi, takeInput]

theorem step_resetAssert {s : State} {rest : List Input} (hp : s.platform.present = true)
    (hi : s.inputs = .resetAssert :: rest) : step s = .next (assertReset { s with inputs := rest }) := by
  simp [step, hp, hi, takeInput]

theorem step_resetRelease {s : State} {rest : List Input} (hp : s.platform.present = true)
    (hi : s.inputs = .resetRelease :: rest) : step s = .next (releaseReset { s with inputs := rest }) := by
  simp [step, hp, hi, takeInput]

theorem decodeAccess_outside {base : Nat} {a : Access} (h : a.addr < base ∨ base + windowBytes ≤ a.addr) :
    decodeAccess base a = .error .outsideWindow := by
  unfold decodeAccess; rw [if_pos h]

theorem decodeAccess_inside {base : Nat} {a : Access} (h1 : base ≤ a.addr) (h2 : a.addr < base + windowBytes) :
    decodeAccess base a ≠ .error .outsideWindow := by
  unfold decodeAccess
  rw [if_neg (by omega)]
  repeat' split
  all_goals simp

/-- A host access inside the window, out of reset, always has a next state. -/
theorem hostAccess_next {a : Access} {s : State} (hr : s.inReset = false) (h1 : s.platform.base ≤ a.addr)
    (h2 : a.addr < s.platform.base + windowBytes) : ∃ t, hostAccess a s = .next t := by
  unfold hostAccess
  split
  · exact absurd ‹_› (decodeAccess_inside h1 h2)
  · exact ⟨busErrorAccess s, by rw [hr]⟩
  · obtain ⟨t, ht⟩ := exec_next ‹Instr› s
    exact ⟨t, by rw [hr]; exact ht⟩

theorem hostAccess_ok {a : Access} {s : State} {i : Instr} (hr : s.inReset = false)
    (hd : decodeAccess s.platform.base a = .ok i) : hostAccess a s = exec i s := by
  simp [hostAccess, hd, hr]

theorem hostAccess_cases {a : Access} {s t : State} (h : hostAccess a s = .next t) :
    s.inReset = false ∧
    ((∃ i, decodeAccess s.platform.base a = .ok i ∧ exec i s = .next t) ∨
     (∃ e, decodeAccess s.platform.base a = .error e ∧ e ≠ .outsideWindow ∧ t = busErrorAccess s)) := by
  unfold hostAccess at h
  split at h
  · cases h
  · split at h
    · cases h
    · rename_i e hne hd _ hr
      injection h with h
      exact ⟨hr, .inr ⟨e, hd, hne, h.symm⟩⟩
  · split at h
    · cases h
    · exact ⟨‹_›, .inl ⟨_, ‹_›, h⟩⟩

/-- Everything a step can do. -/
theorem step_cases {s t : State} (h : step s = .next t) :
    s.platform.present = true ∧
    ((coreMoves s ∧ t = coreTurn { s with inputs := s.inputs.tail }) ∨
     (∃ rest, s.inputs = .resetAssert :: rest ∧ t = assertReset { s with inputs := rest }) ∨
     (∃ rest, s.inputs = .resetRelease :: rest ∧ t = releaseReset { s with inputs := rest }) ∨
     (∃ a rest, s.inputs = .access a :: rest ∧ hostAccess a { s with inputs := rest } = .next t)) := by
  unfold step at h
  split at h
  · cases h
  · rename_i hp hi
    injection h with h
    refine ⟨hp, .inl ⟨.inl hi, ?_⟩⟩
    rw [← h, hi, List.tail_nil, ← hi]
  · rename_i e rest hp hi
    refine ⟨hp, ?_⟩
    cases e with
    | access a => exact .inr (.inr (.inr ⟨a, rest, hi, h⟩))
    | coreTurn =>
      injection h with h
      exact .inl ⟨.inr ⟨rest, hi⟩, by rw [← h, hi, List.tail_cons]⟩
    | resetAssert =>
      injection h with h
      exact .inr (.inl ⟨rest, hi, h.symm⟩)
    | resetRelease =>
      injection h with h
      exact .inr (.inr (.inl ⟨rest, hi, h.symm⟩))

end Sys2Proof.Machine
end

