-- ==== Sys2Proof/Tests/Slice0.lean ====
section
/-! SUPPORT. Tests of single decodes, steps and functions, each with its expected value from the spec (the V<n> of
95_test_vectors.md or the rule named), and for every statement with hypotheses a concrete input that meets them. -/

open Sys2Proof Sys2Proof.Machine

namespace Sys2Proof.Tests

/-! ### Small states -/

/-- The eight key words that hold two blocks. -/
def keyOf (k0 k1 : Block) : Vector Word 8 :=
  #v[blockWord k0 0, blockWord k0 1, blockWord k0 2, blockWord k0 3,
     blockWord k1 0, blockWord k1 1, blockWord k1 2, blockWord k1 3]

/-- Reset with events waiting. -/
def waiting (l : List Input) : State := { State.reset with inputs := l }

/-- Reset with the core BUSY and `p` latched. -/
def running (p : Pending) : State := { State.reset with phase := .busy, pend := some p }

/-- Reset with STATUS.KV set over the zero schedule RAM: an idle core whose checks see a schedule. -/
def keyed : State := { State.reset with kv := true }

/-- The schedule of the all-zero 16-byte key, in the round-key RAM. -/
def zeroKeyed : State := { State.reset with kv := true, rk := expandKey 16 (Vector.replicate 8 0) }

/-- A word access by its parts. -/
def readAt (addr : Nat) : Access := { write := false, addr := addr, size := .word, lanes := 0, data := 0 }
def writeAt (addr : Nat) (v : Word) : Access := { write := true, addr := addr, size := .word, lanes := 0xF, data := v }

/-- The next state of a step, where there is one. -/
def next? (r : Result) : Option State :=
  match r with
  | .next t => some t
  | .fault _ | .refused _ => none

/-! ### WellFormed refuses what each check is for -/

theorem test_wf_refuses_wr_cmd : Instr.wf (.wr .cmd 0x00001001) = false := by decide
theorem test_wf_refuses_illegal_of_a_command : Instr.wf (.illegal 0x00001001) = false := by decide
theorem test_wf_accepts : Instr.wf (.wr .status 0) = true ∧ Instr.wf (.illegal 0) = true := by decide

/-! ### Command words, bit by bit (R70: 18 zeros, LEN, 4 zeros, OP) -/

theorem test_decode_expand : decodeWord 0b00000000000000000001000000000001 = .expand 16 := by decide
theorem test_decode_expand_32 : decodeWord 0b00000000000000000010000000000001 = .expand 32 := by decide
theorem test_decode_encrypt : decodeWord 0b00000000000000000001000000000010 = .encrypt 16 := by decide
theorem test_decode_decrypt : decodeWord 0b00000000000000000001000000000011 = .decrypt 16 := by decide
theorem test_decode_ghashUpdate : decodeWord 0b00000000000000000001000000000100 = .ghashUpdate 16 := by decide
theorem test_decode_zeroize : decodeWord 0b00000000000000000011111100001111 = .zeroize 63 := by decide

/-- R76, V33: opcode 0, the reserved opcodes, and each end of the reserved fields. -/
theorem test_decode_illegal :
    decodeWord 0x00000000 = .illegal 0x00000000 ∧ decodeWord 0x00000005 = .illegal 0x00000005 ∧
    decodeWord 0x0000000E = .illegal 0x0000000E ∧ decodeWord 0x00001012 = .illegal 0x00001012 ∧
    decodeWord 0x00001082 = .illegal 0x00001082 ∧ decodeWord 0x00005002 = .illegal 0x00005002 ∧
    decodeWord 0x80001002 = .illegal 0x80001002 := by decide

theorem test_decodeTableWord :
    decodeTableWord 32 0x00001004 = some (.ghashUpdate 16) ∧ decodeTableWord 8 0x0F = some (.zeroize 0) := by decide

/-! ### Bus accesses (R51, R53, R54, R78) -/

/-- V35's four accesses, and a write that does not enable all four bytes. -/
theorem test_bus_errors :
    decodeAccess 0 { writeAt 0x30 1 with size := .byte, lanes := 0x1 } = .error .size ∧
    decodeAccess 0 { readAt 0x06 with size := .half } = .error .size ∧
    decodeAccess 0 (readAt 0x32) = .error .misaligned ∧
    decodeAccess 0 { readAt 0x40 with size := .wide } = .error .size ∧
    decodeAccess 0 { writeAt 0x30 1 with lanes := 0x7 } = .error .byteEnables := by decide

theorem test_window_edges :
    decodeAccess 0x80 (readAt 0x7F) = .error .outsideWindow ∧ decodeAccess 0x80 (readAt 0x80) = .ok (.rd .cmd) ∧
    decodeAccess 0x80 (readAt 0xFC) = .ok (.rd (.rsvHigh 3)) ∧
    decodeAccess 0x80 (readAt 0x100) = .error .outsideWindow := by decide

/-- R22's offsets: the first and last word of each group. -/
theorem test_offsets :
    decodeAccess 0 (writeAt 0x10 7) = .ok (.wr (.key 0) 7) ∧ decodeAccess 0 (writeAt 0x2C 7) = .ok (.wr (.key 7) 7) ∧
    decodeAccess 0 (writeAt 0x30 7) = .ok (.wr (.bin 0) 7) ∧ decodeAccess 0 (writeAt 0x3C 7) = .ok (.wr (.bin 3) 7) ∧
    decodeAccess 0 (readAt 0x40) = .ok (.rd (.bout 0)) ∧ decodeAccess 0 (readAt 0x4C) = .ok (.rd (.bout 3)) ∧
    decodeAccess 0 (writeAt 0x50 7) = .ok (.wr (.tag 0) 7) ∧ decodeAccess 0 (writeAt 0x5C 7) = .ok (.wr (.tag 3) 7) ∧
    decodeAccess 0 (writeAt 0x60 7) = .ok (.wr (.hkey 0) 7) ∧ decodeAccess 0 (writeAt 0x6C 7) = .ok (.wr (.hkey 3) 7) ∧
    decodeAccess 0 (readAt 0x04) = .ok (.rd .status) ∧ decodeAccess 0 (readAt 0x08) = .ok (.rd (.rsvLow 0)) ∧
    decodeAccess 0 (readAt 0x0C) = .ok (.rd (.rsvLow 1)) ∧ decodeAccess 0 (readAt 0x70) = .ok (.rd (.rsvHigh 0)) ∧
    decodeAccess 0 (writeAt 0x00 0x00001001) = .ok (.expand 16) := by decide

/-! ### Primitives -/

/-- V11. -/
theorem test_field :
    xtime 0x57 = 0xAE ∧ xtime 0x80 = 0x1B ∧ xtime 0x1B = 0x36 ∧ gmul 0x57 0x83 = 0xC1 ∧ gmul 0x57 0x13 = 0xFE ∧
    gmul 0x03 0xFF = 0x1A ∧ ginv 0x02 = 0x8D ∧ ginv 0x53 = 0xCA := by decide +kernel

/-- V12, with entries of the first and last row and column of each table. -/
theorem test_sbox :
    sbox 0x00 = 0x63 ∧ sbox 0x01 = 0x7C ∧ sbox 0x53 = 0xED ∧ sbox 0x0F = 0x76 ∧ sbox 0xF0 = 0x8C ∧ sbox 0xFF = 0x16 ∧
    sboxInv 0x63 = 0x00 ∧ sboxInv 0x00 = 0x52 ∧ sboxInv 0x0F = 0xFB ∧ sboxInv 0xF0 = 0x17 ∧ sboxInv 0xFF = 0x7D := by
  decide +kernel

/-- V13, V14. -/
theorem test_rows_and_columns :
    shiftRows 0x00112233445566778899AABBCCDDEEFF = 0x0055AAFF4499EE3388DD2277CC1166BB ∧
    invShiftRows 0x00112233445566778899AABBCCDDEEFF = 0x00DDAA774411EEBB885522FFCC996633 ∧
    mixColumns 0xDB135345F20A225C01010101C6C6C6C6 = 0x8E4DA1BC9FDC589D01010101C6C6C6C6 ∧
    invMixColumns 0x8E4DA1BC9FDC589D01010101C6C6C6C6 = 0xDB135345F20A225C01010101C6C6C6C6 := by decide +kernel

/-- V15. -/
theorem test_rounds :
    roundEnc 0x00112233445566778899AABBCCDDEEFF 0 = 0x6379E6D9F467FB76AD063CF4D2EB8AA3 ∧
    roundEncLast 0x00112233445566778899AABBCCDDEEFF 0 = 0x63FCAC161BEE28C3C4C193F54B8233EA ∧
    roundDec 0x00112233445566778899AABBCCDDEEFF 0 = 0xDDE700C122713968080E36A363F941B0 ∧
    roundDecLast 0x00112233445566778899AABBCCDDEEFF 0 = 0x52C9620286E399FE97ED947D27F9D366 := by decide +kernel

/-- V16, V17. -/
theorem test_key_steps :
    assist 0x2B7E151628AED2A6ABF7158809CF4F3C 0x01 = 0x34E4B524E5B52434018A84EB8B84EB01 ∧
    assist 0xAC7766F319FADC2128D12941575C006E 0x36 = 0xD42D86FD1B86FDD45B4A639F7C639F5B ∧
    diffuse 0x000102030405060708090A0B0C0D0E0F = 0x00010203040404040C0D0E0F00000000 ∧
    rotWord 0x01020304 = 0x02030401 ∧ subWord 0xCF4F3C09 = 0x8A84EB01 := by decide +kernel

/-- V8: the round constants double from 1. -/
theorem test_round_constants : rcon 1 = 0x01 ∧ ∀ i : Fin 9, rcon (i + 2) = xtime (rcon (i + 1)) := by decide +kernel

/-- V29. -/
theorem test_reductions :
    gfMul 1 1 = 0xE6080000000000000000000000000003 ∧
    gfMul 0x66E94BD4EF8A2C3B884CFA59CA342B2E 0x66E94BD4EF8A2C3B884CFA59CA342B2E = 0xA569901BB4B18906F5059D24465C904D := by
  decide +kernel

/-! ### One step of each instruction, and of the core -/

/-- V20: four slots of the schedule the core's step leaves for the FIPS-197 A.1 key, and zero past it. -/
theorem test_expand_16 :
    let t := coreTurn (running (.expand 16 (keyOf 0x2B7E151628AED2A6ABF7158809CF4F3C 0)))
    rkSlot t.rk 1 = 0xA0FAFE1788542CB123A339392A6C7605 ∧ rkSlot t.rk 10 = 0xD014F9A8C9EE2589E13F0CC8B6630CA6 ∧
    rkSlot t.rk 11 = 0x0C7B5A631319EAFEB0398890664CFBB4 ∧ rkSlot t.rk 19 = 0x2B3708A7F262D405BC3EBDBF4B617D62 ∧
    rkSlot t.rk 20 = 0 ∧ statusWord t = 0x00000012 := by decide +kernel

/-- V21: the even and odd steps of the FIPS-197 A.3 expansion, and both ends of the transformed keys. -/
theorem test_expand_32 :
    let t := coreTurn (running (.expand 32
      (keyOf 0x603DEB1015CA71BE2B73AEF0857D7781 0x1F352C073B6108D72D9810A30914DFF4)))
    rkSlot t.rk 2 = 0x9BA354118E6925AFA51A8B5F2067FCDE ∧ rkSlot t.rk 3 = 0xA8B09C1A93D194CDBE49846EB75D5B9A ∧
    rkSlot t.rk 14 = 0xFE4890D1E6188D0B046DF344706C631E ∧ rkSlot t.rk 27 = 0x8EC6BFF6829CA03B9E49AF7EDBA96125 ∧
    statusWord t = 0x00000032 := by decide +kernel

/-- V1. -/
theorem test_encrypt_128 :
    blockOfGroup (coreTurn (running (.encrypt 16 (Vector.replicate 4 0) (expandKey 16 (Vector.replicate 8 0)) false))).bout
      = 0x66E94BD4EF8A2C3B884CFA59CA342B2E := by decide +kernel

/-- V23. -/
theorem test_encrypt_256 :
    blockOfGroup (coreTurn (running (.encrypt 16 (groupOfBlock 0x00112233445566778899AABBCCDDEEFF)
      (expandKey 32 (keyOf 0x000102030405060708090A0B0C0D0E0F 0x101112131415161718191A1B1C1D1E1F)) true))).bout
      = 0x8EA2B7CA516745BFEAFC49904B496089 := by decide +kernel

/-- V24, V38: DECRYPT of a block no ENCRYPT gave. -/
theorem test_decrypt_128 :
    blockOfGroup (coreTurn (running (.decrypt 16 (Vector.replicate 4 0) (expandKey 16 (Vector.replicate 8 0)) false))).bout
      = 0x140F0F1011B5223D79587717FFD9EC3A := by decide +kernel

/-- V2, V6. -/
theorem test_decrypt_256 :
    blockOfGroup (coreTurn (running (.decrypt 16 (groupOfBlock 0xDC95C078A2408989AD48A21492842087)
      (expandKey 32 (Vector.replicate 8 0)) true))).bout = 0 := by decide +kernel

/-- V30. -/
theorem test_ghash_stream :
    blockOfGroup (coreTurn (running (.ghashUpdate 16 (groupOfBlock 0x5E2EC746917062882C85B0685353DEB7)
      (groupOfBlock 0x66E94BD4EF8A2C3B884CFA59CA342B2E) (groupOfBlock 0x80)))).tag
      = 0xF38CBB1AD69223DCC3457AE5B6B0F885 := by decide +kernel

/-- V31. -/
theorem test_ghash_both_operands :
    blockOfGroup (coreTurn (running (.ghashUpdate 16 (groupOfBlock 0x0123456789ABCDEFFEDCBA9876543210)
      (groupOfBlock 0x66E94BD4EF8A2C3B884CFA59CA342B2E) (groupOfBlock 0xFEDCBA98765432100123456789ABCDEF)))).tag
      = 0xCB2DC6F0B950F18D9E396C7438025A0C := by decide +kernel

/-- V33, V37. -/
theorem test_zeroize :
    (next? (exec (.zeroize 63) zeroKeyed)).map (fun t => (statusWord t, statusWord (coreTurn t), (coreTurn t).rk))
      = some (0x00000011, 0x00000002, Vector.replicate 28 0) := by decide +kernel

/-- V33: the STATUS of rejected words, with and without a schedule. -/
theorem test_rejections :
    (next? (exec (decodeWord 0x00001801) keyed)).map statusWord = some 0x00000116 ∧
    (next? (exec (decodeWord 0x00001802) State.reset)).map statusWord = some 0x00000206 ∧
    (next? (exec (decodeWord 0x00001002) State.reset)).map statusWord = some 0x00000406 ∧
    (next? (exec (decodeWord 0x00001003) State.reset)).map statusWord = some 0x00000406 ∧
    (next? (exec (decodeWord 0x00001104) keyed)).map statusWord = some 0x00000216 := by decide

theorem test_illegal :
    (next? (exec (.illegal 0x00000000) keyed)).map statusWord = some 0x00000316 ∧
    (next? (exec (.illegal 0x0000000E) State.reset)).map statusWord = some 0x00000306 := by decide

/-- V34. -/
theorem test_wr_packs :
    (next? (exec (.wr (.bin 1) 0x04050607) State.reset)).map (fun t => blockOfGroup t.bin)
      = some 0x00000000040506070000000000000000 := by decide

/-- V36: a write while BUSY is dropped and sets OVR; STATUS reads 0x00000019 with a 128-bit schedule. -/
theorem test_wr_dropped :
    (next? (exec (.wr (.bin 0) 0xFFFFFFFF)
        { keyed with phase := .busy, pend := some (.encrypt 16 keyed.bin keyed.rk false) })).map
      (fun t => (statusWord t, t.bin)) = some (0x00000019, Vector.replicate 4 0) := by decide

/-- R33, R37, V34: the key registers read 0. -/
theorem test_rd_hides_keys :
    (next? (exec (.rd (.key 3)) { State.reset with key := Vector.replicate 8 7 })).map (·.resp) = some (.data 0) ∧
    (next? (exec (.rd (.hkey 3)) { State.reset with hkey := Vector.replicate 4 7 })).map (·.resp) = some (.data 0) := by
  decide

theorem test_rd_tag :
    (next? (exec (.rd (.tag 2)) { State.reset with tag := #v[1, 2, 3, 4] })).map (·.resp) = some (.data 3) := by decide

/-- V39: reset abandons a BUSY command. -/
theorem test_reset_input :
    step { running (.zeroize 0) with inputs := [.resetAssert] } = .next { State.reset with inReset := true } := by rfl

/-- V35: a misaligned read changes nothing. -/
theorem test_step_bus_error : step (waiting [.access (readAt 0x32)]) = .next { State.reset with resp := .busError } := by
  rfl

theorem test_withFetchWord : (next? (step (State.reset.withFetchWord 32 0x00001001))).map statusWord = some 0x00000001 := by
  decide

/-- R79: the LEN a CMD line takes where it is left out. -/
theorem test_default_len :
    defaultLen .ghashUpdate = some 16 ∧ defaultLen .zeroize = some 0 ∧ defaultLen .expand = none := by decide

/-- R80's example: the transactions of a line. -/
theorem test_host_lines :
    lineInputs 0 (.cmd .expand 32) = [.access (writeAt 0x00 0x00002001)] ∧
    lineInputs 0 (.wrblk .bin 0x000102030405060708090A0B0C0D0E0F) =
      [.access (writeAt 0x30 0x00010203), .access (writeAt 0x34 0x04050607),
       .access (writeAt 0x38 0x08090A0B), .access (writeAt 0x3C 0x0C0D0E0F)] := by decide

/-! ### Inputs that meet the statements' hypotheses -/

/-- An idle core with a schedule in its RAM meets the invariant, and so does a BUSY one. -/
theorem zeroKeyed_inv : Inv zeroKeyed where
  noSchedule h := by cases h
  holdsSchedule _ := ⟨Vector.replicate 8 0, rfl⟩
  busyLatched := by decide
  busyNotDone h := by cases h
  errIdle h := by cases h
  errCodeErr := by decide
  latched _ h := by cases h
  heldInReset h := by cases h

/-- `zeroKeyed` after an ENCRYPT was accepted. -/
def encrypting : State :=
  { zeroKeyed with phase := .busy, pend := some (.encrypt 16 zeroKeyed.bin zeroKeyed.rk false) }

theorem encrypting_inv : Inv encrypting where
  noSchedule h := by cases h
  holdsSchedule _ := ⟨Vector.replicate 8 0, rfl⟩
  busyLatched := ⟨fun _ h => (by cases h), fun _ => rfl⟩
  busyNotDone _ := rfl
  errIdle h := by cases h
  errCodeErr := by decide
  latched p h := by
    obtain rfl : Pending.encrypt 16 zeroKeyed.bin zeroKeyed.rk false = p := by injection h
    exact ⟨rfl, rfl⟩
  heldInReset h := by cases h

theorem witness_StepRunsTheDecodedInstruction :
    (waiting [.access (readAt 0x04)]).platform.present = true ∧ (waiting [.access (readAt 0x04)]).inReset = false ∧
    decodeAccess (waiting []).platform.base (readAt 0x04) = .ok (.rd .status) := by decide

theorem witness_DecodingUndoesEncoding :
    WellFormed (.expand 63) ∧ WellFormed (.wr (.hkey 3) 0xFFFFFFFF) ∧ WellFormed (.illegal 0) ∧ WellFormed (.rd .cmd) := by
  decide

/-- For each clause a word; 0x00000010, 0x00000080, 0x00004000 and 0x80000000 are the ends of the reserved fields. -/
theorem witness_DecodingFollowsTheMaskTable :
    (0x00000010 : Word).extractLsb' 4 4 ≠ 0 ∧ (0x00000080 : Word).extractLsb' 4 4 ≠ 0 ∧
    (0x00004000 : Word).extractLsb' 14 18 ≠ 0 ∧ (0x80000000 : Word).extractLsb' 14 18 ≠ 0 ∧
    (0x00003F01 : Word) &&& 0xFFFFC0FF = 0x00000001 ∧ (0x00000002 : Word) &&& 0xFFFFC0FF = 0x00000002 ∧
    (0x00003F03 : Word) &&& 0xFFFFC0FF = 0x00000003 ∧ (0x00000004 : Word) &&& 0xFFFFC0FF = 0x00000004 ∧
    (0x00003F0F : Word) &&& 0xFFFFC0FF = 0x0000000F ∧
    isCommandWord 0x00000000 = false ∧ isCommandWord 0x00000005 = false ∧ isCommandWord 0x0000000E = false := by decide

/-- A platform whose window is not at address 0. -/
def secondWindow : Platform := { baseIndex := 1, present := true }

theorem witness_StepStopsOnlyWhereTheSpecIsSilent :
    ({ baseIndex := 0, present := false } : Platform).present = false ∧
    (readAt 0x7F).addr < secondWindow.base ∧ secondWindow.base + 0x80 ≤ (readAt 0x100).addr ∧
    secondWindow.base ≤ (readAt 0x80).addr ∧ (readAt 0xFF).addr < secondWindow.base + 0x80 ∧
    (assertReset State.reset).inReset = true ∧ (assertReset State.reset).platform.present = true ∧
    State.reset.inReset = false := by decide

theorem witness_BusErrorsChangeNothing :
    { readAt 0x00 with size := .wide }.size ≠ .word ∧ ((readAt 0x7F).addr - State.reset.platform.base) % 4 ≠ 0 ∧
    State.reset.platform.base ≤ (readAt 0x00).addr ∧ (readAt 0x7F).addr < State.reset.platform.base + 0x80 ∧
    { writeAt 0x7C 0 with lanes := 0xE }.write = true ∧ { writeAt 0x7C 0 with lanes := 0xE }.lanes ≠ 0x0 ∧
    { writeAt 0x7C 0 with lanes := 0xE }.lanes ≠ 0xF := by decide

theorem witness_IdleWritesFollowTheRegisterMap : State.reset.phase = .idle := rfl
theorem witness_ReadAfterWriteReturnsTheValue : State.reset.phase = .idle := rfl
theorem witness_ExpandFillsTheRoundKeyRam :
    State.reset.phase = .idle ∧ ((16 : Len) = 16 ∨ (16 : Len) = 32) ∧ ((32 : Len) = 16 ∨ (32 : Len) = 32) := by decide
theorem witness_EncryptWritesTheCipherOfBin : zeroKeyed.phase = .idle ∧ zeroKeyed.kv = true := ⟨rfl, rfl⟩
theorem witness_DecryptWritesTheInverseCipherOfBin : zeroKeyed.phase = .idle ∧ zeroKeyed.kv = true := ⟨rfl, rfl⟩
theorem witness_GhashUpdateWritesTheNextTag : State.reset.phase = .idle := rfl
theorem witness_ZeroizeClearsEverything : State.reset.phase = .idle := rfl
theorem witness_SecondExpandUsesTheZeroKey :
    State.reset.phase = .idle ∧ ((16 : Len) = 16 ∨ (16 : Len) = 32) ∧ ((32 : Len) = 16 ∨ (32 : Len) = 32) := by decide

theorem witness_WritesWhileBusyAreDropped :
    (running (.zeroize 0)).phase = .busy ∧
    decodeAccess State.reset.platform.base (readAt 0x02) = .error .misaligned ∧
    (next? (step { running (.zeroize 0) with inputs := [.access (readAt 0x02)] })).isSome = true := by decide

theorem witness_RegisterWritesAreIdempotent :
    Reg.bin 3 ≠ .cmd ∧ (next? (exec (.wr (.bin 3) 5) State.reset)).isSome = true := by decide

theorem witness_AcceptedCommandsAreLatched :
    State.reset.phase = .idle ∧ Acceptable .expand 16 false ∧ Acceptable .expand 32 true ∧ Acceptable .encrypt 16 true ∧
    Acceptable .decrypt 16 true ∧ Acceptable .ghashUpdate 16 false ∧ Acceptable .zeroize 63 false := by
  refine ⟨rfl, .inl rfl, .inr rfl, ⟨rfl, rfl⟩, ⟨rfl, rfl⟩, rfl, trivial⟩

theorem witness_RejectedCommandsChangeOnlyStatus :
    State.reset.phase = .idle ∧ ¬ Acceptable .expand 24 true ∧ ¬ Acceptable .encrypt 16 false ∧ ¬ Acceptable .decrypt 17 true ∧
    ¬ Acceptable .ghashUpdate 15 true := by
  refine ⟨rfl, fun h => ?_, fun h => ?_, fun h => ?_, fun h => ?_⟩
  · rcases h with h | h <;> exact absurd h (by decide)
  · exact absurd h.2 (by decide)
  · exact absurd h.1 (by decide)
  · exact absurd h (by decide : (15 : Len) ≠ 16)

/-- For each clause words at the ends of its range; no word falls under two clauses, since each excludes the earlier
ones. -/
theorem witness_FirstFailingCheckIsReported :
    let op := fun w : Word => w.extractLsb' 0 4
    let len := fun w : Word => w.extractLsb' 8 6
    let illegal := fun w : Word =>
      w.extractLsb' 14 18 ≠ 0 ∨ w.extractLsb' 4 4 ≠ 0 ∨ op w = 0x0 ∨ (0x5 ≤ op w ∧ op w ≤ 0xE)
    illegal 0x00000000 ∧ illegal 0x00000005 ∧ illegal 0x0000000E ∧ illegal 0x00000011 ∧ illegal 0x80001002 ∧
    (¬ illegal 0x00000F01 ∧ op 0x00000F01 = 0x1 ∧ len 0x00000F01 ≠ 16 ∧ len 0x00000F01 ≠ 32) ∧
    (¬ illegal 0x00001102 ∧ op 0x00001102 = 0x2 ∧ len 0x00001102 ≠ 16) ∧
    (¬ illegal 0x00001003 ∧ op 0x00001003 = 0x3 ∧ len 0x00001003 = 16 ∧ State.reset.kv = false) ∧
    (¬ illegal 0x00001002 ∧ op 0x00001002 = 0x2 ∧ len 0x00001002 = 16 ∧ keyed.kv = true) := by
  dsimp only
  refine ⟨?_, ?_, ?_, ?_, ?_, ?_, ?_, ?_, ?_⟩ <;> decide

theorem witness_StructuralErrorsHaveTheirCodes :
    State.reset.phase = .idle ∧ (15 : Len) ≠ 16 ∧ (15 : Len) ≠ 32 ∧ (17 : Len) ≠ 16 ∧
    (0x00000011 : Word).getLsbD 4 = true ∧ (0x00000082 : Word).getLsbD 7 = true ∧ (0x00004001 : Word).getLsbD 14 = true ∧
    (0x80000001 : Word).getLsbD 31 = true ∧ (0x00003F00 : Word).extractLsb' 0 4 = 0x0 ∧
    0x5 ≤ (0x00000005 : Word).extractLsb' 0 4 ∧ (0x0000000E : Word).extractLsb' 0 4 ≤ 0xE := by decide

theorem witness_BlockCommandsNeedASchedule :
    State.reset.phase = .idle ∧ State.reset.kv = false ∧ (running (.zeroize 5)).phase = .busy ∧ (running (.zeroize 5)).pend = some (.zeroize 5) := by decide

/-- A state for each row of the table. -/
theorem witness_StatusEventTable :
    State.reset.phase = .idle ∧ Acceptable .expand 32 State.reset.kv ∧ check (.illegal 0) State.reset.kv ≠ .none ∧ check (.cmd .encrypt 15) State.reset.kv ≠ .none ∧
    (running (.expand 16 (Vector.replicate 8 0))).pend = some (.expand 16 (Vector.replicate 8 0)) ∧
    (running (.expand 32 (Vector.replicate 8 0))).phase = .busy ∧
    encrypting.phase = .busy ∧ encrypting.pend = some (.encrypt 16 zeroKeyed.bin zeroKeyed.rk false) ∧
    pendingOp (.encrypt 16 zeroKeyed.bin zeroKeyed.rk false) = .encrypt ∧ Reg.tag 0 ≠ .cmd :=
  ⟨rfl, .inr rfl, by decide, by decide, rfl, rfl, rfl, rfl, rfl, by decide⟩

theorem witness_ExpandDependsOnTheKeyAlone :
    State.reset.phase = .idle ∧ ∀ j : Fin 8, (j.val < 4 ∨ (16 : Len) = 32) →
      State.reset.key[j] = { State.reset with key := keyOf 0 1, bin := #v[1, 2, 3, 4] }.key[j] := by decide

theorem witness_GhashUpdateCornerCases :
    State.reset.phase = .idle ∧ blockOfGroup State.reset.hkey = 0 ∧ State.reset.bin = State.reset.tag ∧ blockOfGroup State.reset.tag = 0 ∧
    blockOfGroup { State.reset with hkey := #v[0x80000000, 0, 0, 0] }.hkey = (0x80 : Block) <<< 120 := by decide

theorem witness_CompletionIsTheCoresOnlyStep :
    (waiting [.coreTurn]).platform.present = true ∧ (waiting [.coreTurn]).inputs = [.coreTurn] ∧
    State.reset.inputs = [] ∧ (running (.zeroize 0)).phase = .busy ∧ (running (.zeroize 0)).pend = some (.zeroize 0) := by
  decide

theorem witness_AccessesWhileBusySeeOldResults :
    (next? (step { running (.zeroize 0) with inputs := [.access (writeAt 0x30 1)] })).isSome = true ∧
    (next? (step { running (.zeroize 0) with inputs := [.access (readAt 0x30)] })).isSome = true ∧
    (readAt 0x30).write = false := by decide

theorem witness_PolledIdleMeansComplete : Inv zeroKeyed ∧ Inv encrypting := ⟨zeroKeyed_inv, encrypting_inv⟩

/-- The registers of each clause, at the ends of their groups, and two that no clause names. -/
theorem witness_WriteAndCompletionInEitherOrder :
    encrypting.platform.present = true ∧ encrypting.inReset = false ∧ encrypting.phase = .busy ∧
    encrypting.pend = some (.encrypt 16 zeroKeyed.bin zeroKeyed.rk false) ∧
    Reg.key 7 ≠ .cmd ∧ Reg.bin 0 ≠ .cmd ∧ Reg.tag 3 ≠ .cmd ∧ Reg.hkey 0 ≠ .cmd ∧
    (∀ j, Reg.bin 0 ≠ .key j) ∧ (∀ j, Reg.key 7 ≠ .bin j) ∧ (∀ j, Reg.hkey 0 ≠ .tag j) ∧ (∀ j, Reg.tag 3 ≠ .hkey j) ∧
    Reg.status ≠ .cmd ∧ Reg.rsvHigh 3 ≠ .cmd :=
  ⟨rfl, rfl, rfl, rfl, by decide, by decide, by decide, by decide, by decide, by decide, by decide, by decide,
    by decide, by decide⟩

/-- A read and a dropped write, at the ends of the window. -/
theorem witness_CompletionFollowsAnyAccesses :
    { running (.zeroize 0) with inputs := [readAt 0x00, writeAt 0x7F 1].map .access }.inputs =
      [.access (readAt 0x00), .access (writeAt 0x7F 1)] ∧
    ∀ a ∈ [readAt 0x00, writeAt 0x7F 1],
      State.reset.platform.base ≤ a.addr ∧ a.addr < State.reset.platform.base + 0x80 := by decide

theorem witness_GhashStreamChains :
    ready (loadProgram [.wrblk .bin 1, .cmd .ghashUpdate 16, .poll 2] zeroKeyed) ∧
    (loadProgram [.wrblk .bin 1, .cmd .ghashUpdate 16, .poll 2] zeroKeyed).inputs =
      programInputs zeroKeyed.platform.base
        ([(1, 2)].flatMap fun b => [.wrblk .bin b.1, .cmd .ghashUpdate 16, .poll b.2]) :=
  ⟨⟨rfl, rfl, rfl⟩, rfl⟩

theorem witness_ScheduleIsSharedByCommands :
    ready zeroKeyed ∧ zeroKeyed.kv = true ∧
    (loadProgram [.wrblk .bin 1, .cmd .encrypt 16, .poll 0, .wrblk .bin 2, .cmd .decrypt 16, .poll 3] zeroKeyed).inputs =
      programInputs zeroKeyed.platform.base
        (([(true, 1, 0)] ++ [(false, 2, 3)] : List (Bool × Block × Nat)).flatMap fun b =>
          [.wrblk .bin b.2.1, .cmd (if b.1 then .encrypt else .decrypt) 16, .poll b.2.2]) :=
  ⟨⟨rfl, rfl, rfl⟩, rfl, rfl⟩

theorem witness_ResetClearsAnyState :
    { running (.zeroize 0) with inputs := [.resetAssert] }.platform.present = true ∧
    { running (.zeroize 0) with inputs := [.resetAssert] }.inputs = [.resetAssert] := by decide

theorem witness_EveryStepKeepsTheInvariant : ∃ t, Inv encrypting ∧ step encrypting = .next t :=
  ⟨_, encrypting_inv, rfl⟩

/-- Reset is reachable with no step; a BUSY state and a state with ERR and ERRCODE set are with one. -/
theorem witness_ReachableStatesMeetTheStatedInvariants :
    Reachable State.reset ∧
    (∃ t, Reachable t ∧ t.phase = .busy) ∧ (∃ t, Reachable t ∧ t.err = true ∧ t.errCode ≠ .none) := by
  refine ⟨⟨State.reset.platform, [], 0, rfl⟩, ?_, ?_⟩
  · exact ⟨_, ⟨State.reset.platform, [.access (writeAt 0 0x0000000F)], 1, rfl⟩, by decide⟩
  · exact ⟨_, ⟨State.reset.platform, [.access (writeAt 0 0)], 1, rfl⟩, by decide⟩

/-- A step for each register that changes it. -/
theorem witness_RegistersChangeOnlyByTheirWriters :
    ((next? (step (waiting [.access (writeAt 0x10 1)]))).map (·.key) ≠ some State.reset.key) ∧
    ((next? (step (waiting [.access (writeAt 0x30 1)]))).map (·.bin) ≠ some State.reset.bin) ∧
    ((next? (step (waiting [.access (writeAt 0x5C 1)]))).map (·.tag) ≠ some State.reset.tag) ∧
    ((next? (step (waiting [.access (writeAt 0x6C 1)]))).map (·.hkey) ≠ some State.reset.hkey) ∧
    ((next? (step { running (.zeroize 0) with rk := Vector.replicate 28 1 })).map (·.rk) = some (Vector.replicate 28 0)) ∧
    ((next? (step { running (.zeroize 0) with bout := #v[1, 2, 3, 4] })).map (·.bout) = some (Vector.replicate 4 0)) := by
  decide

/-- A step for each flag that changes it. -/
theorem witness_FlagsChangeOnlyByTheirEvents :
    ((next? (step (waiting [.access (writeAt 0 0x0000000F)]))).map (·.phase) = some .busy) ∧
    ((next? (step (running (.zeroize 0)))).map (fun t => (t.phase, t.done)) = some (.idle, true)) ∧
    ((next? (step (waiting [.access (writeAt 0 0)]))).map (fun t => (t.err, t.errCode)) = some (true, .illegalCommand)) ∧
    ((next? (step { running (.zeroize 0) with inputs := [.access (writeAt 0 0)] })).map (·.ovr) = some true) ∧
    ((next? (step { waiting [.access (writeAt 0 0)] with ovr := true })).map (·.ovr) = some false) ∧
    ((next? (step { running (.zeroize 0) with kv := true })).map (·.kv) = some false) := by decide

theorem witness_KeyMaterialIsNotReadable :
    publicPart (waiting [.access (readAt 0x10)]) =
      publicPart { waiting [.access (readAt 0x10)] with key := keyOf 1 2, hkey := #v[1, 2, 3, 4] } ∧
    (next? (step (waiting [.access (readAt 0x10)]))).isSome = true ∧
    (waiting [.access (readAt 0x10)]).phase ≠ .busy := by decide

theorem witness_PlatformIsConstant : (next? (step (waiting [.resetAssert]))).isSome = true := by decide

theorem witness_ForwardKeysFollowTheWordRecurrence : 4 ≤ 43 ∧ 43 < 44 ∧ 8 ≤ 59 ∧ 59 < 60 ∧ 12 % 8 = 4 := by decide

theorem witness_FieldInverseIsUnique : (0x01 : Byte) ≠ 0 ∧ (0xFF : Byte) ≠ 0 := by decide

end Sys2Proof.Tests
end

section
/-! PROOFS. The platform's parameters through each operation and through a step. -/

namespace Sys2Proof.Machine

theorem writeReg_platform {r : Reg} (hr : r ≠ .cmd) (v : Word) (s : State) :
    (writeReg r v s).platform = s.platform := by
  cases r with
  | cmd => exact absurd rfl hr
  | _ => rfl

@[simp] theorem effect_platform (p : Pending) (s : State) : (effect p s).platform = s.platform := by
  cases p <;> simp [effect]

@[simp] theorem coreTurn_platform (s : State) : (coreTurn s).platform = s.platform := by
  obtain ⟨-, h⟩ | ⟨-, -, h⟩ | ⟨p, -, -, h⟩ := coreTurn_cases s
  · rw [h]
  · rw [h]
  · rw [h, finish_platform, effect_platform]

theorem exec_platform {i : Instr} {s t : State} (h : exec i s = .next t) : t.platform = s.platform := by
  obtain ⟨r, -, rfl⟩ | ⟨-, rfl⟩ | ⟨-, r, v, hr, -, rfl⟩ | ⟨-, op, len, -, rfl⟩ | ⟨-, e, -, rfl⟩ := exec_cases h
  · exact respond_platform s _
  · rfl
  · rw [respond_platform, writeReg_platform hr]
  · rfl
  · rfl

theorem hostAccess_platform {a : Access} {s t : State} (h : hostAccess a s = .next t) :
    t.platform = s.platform := by
  obtain ⟨-, ⟨i, -, hi⟩ | ⟨e, -, -, rfl⟩⟩ := hostAccess_cases h
  · exact exec_platform hi
  · exact busErrorAccess_platform s

theorem step_platform {s t : State} (h : step s = .next t) : t.platform = s.platform := by
  obtain ⟨-, ⟨-, rfl⟩ | ⟨rest, -, rfl⟩ | ⟨rest, -, rfl⟩ | ⟨a, rest, -, ha⟩⟩ := step_cases h
  · exact coreTurn_platform _
  · exact assertReset_platform _
  · exact releaseReset_platform _
  · exact (hostAccess_platform ha).trans rfl

/-- Settles O46, by the cases of a step: the core's turn, the reset input, a host access. -/
theorem platformIsConstant : Obligations.PlatformIsConstant := fun _ _ => step_platform

end Sys2Proof.Machine
end

section
/-! PROOFS. Every step as one of nine events, each with the state it leads to. -/

namespace Sys2Proof.Machine

/-- The state with its next event taken from the list. -/
abbrev dequeue (s : State) : State := { s with inputs := s.inputs.tail }

theorem dequeue_of_inputs {s : State} {e : Input} {rest : List Input} (h : s.inputs = e :: rest) :
    dequeue s = { s with inputs := rest } := by rw [dequeue, h, List.tail_cons]

/-- The event a step is, and the state after it (`step_event`). -/
inductive Event (s : State) : State → Prop where
  | reset : resets s → Event s (assertReset (dequeue s))
  | released : Event s (releaseReset (dequeue s))
  /-- The core has the turn and nothing to complete. -/
  | waits : Event s (dequeue s)
  | completed (p : Pending) : completes (pendingOp p) s → s.pend = some p → Event s (finish (effect p (dequeue s)))
  /-- A read or a bus error: the port answers. -/
  | answered (r : Response) : s.inReset = false → Event s (respond r (dequeue s))
  | dropped : s.inReset = false → drops s → Event s (droppedState (dequeue s))
  | written (r : Reg) (v : Word) : s.inReset = false → r ≠ .cmd → hostWrites r s →
      Event s (respond .ack (writeReg r v (dequeue s)))
  | accepted (op : Op) (len : Len) : s.inReset = false → issues s → Acceptable op len s.kv →
      Event s (acceptedState (snapshot op len s) (dequeue s))
  | rejected (e : ErrCode) : s.inReset = false → issues s → e ≠ .none → Event s (rejectedState e (dequeue s))

theorem decodeWord_ne_rd (w : Word) (r : Reg) : decodeWord w ≠ .rd r := by
  unfold decodeWord
  cases decodeCommand w with
  | illegal w => exact fun h => nomatch h
  | cmd op len => cases op <;> exact fun h => nomatch h

theorem coreTurn_event {s : State} (hm : coreMoves s) : Event s (coreTurn (dequeue s)) := by
  obtain ⟨-, h⟩ | ⟨-, -, h⟩ | ⟨p, hb, hp, h⟩ := coreTurn_cases (dequeue s)
  · rw [h]; exact .waits
  · rw [h]; exact .waits
  · rw [h]; exact .completed p ⟨hm, hb, p, hp, rfl⟩ hp

/-- An instruction that an access of the host decodes to. -/
theorem exec_event {s t : State} {a : Access} {rest : List Input} {i : Instr} (hr : s.inReset = false)
    (hi : s.inputs = .access a :: rest) (hd : decodeAccess s.platform.base a = .ok i)
    (h : exec i (dequeue s) = .next t) : Event s t := by
  obtain ⟨r, rfl⟩ | ⟨r, v, rfl, hne⟩ | ⟨w, rfl⟩ := decodeAccess_cases hd
  · injection h with h
    exact h ▸ .answered _ hr
  · injection h with h
    subst h
    cases hp : s.phase with
    | busy =>
      rw [busWrite_busy (s := dequeue s) hp]
      exact .dropped hr ⟨hp, a, rest, _, hi, hd, fun _ h => nomatch h⟩
    | idle =>
      rw [busWrite_idle (s := dequeue s) hp]
      exact .written r v hr hne ⟨hp, a, rest, v, hi, hd⟩
  · rw [decodeWord, exec_command] at h
    injection h with h
    subst h
    cases hp : s.phase with
    | busy =>
      rw [busWrite_busy (s := dequeue s) hp]
      exact .dropped hr ⟨hp, a, rest, _, hi, hd, decodeWord_ne_rd w⟩
    | idle =>
      have hs : issues s := ⟨hp, a, rest, w, hi, hd⟩
      obtain ⟨op, len, -, ha, e⟩ | ⟨e, he, -, e'⟩ := command_cases (decodeCommand w) (dequeue s) hp
      · rw [e]; exact .accepted op len hr hs ha
      · rw [e']; exact .rejected e hr hs he

/-- Everything a step can do, with the event that does it. -/
theorem step_event {s t : State} (h : step s = .next t) : Event s t := by
  obtain ⟨-, ⟨hm, rfl⟩ | ⟨rest, hi, rfl⟩ | ⟨rest, hi, rfl⟩ | ⟨a, rest, hi, ha⟩⟩ := step_cases h
  · exact coreTurn_event hm
  · rw [← dequeue_of_inputs hi]; exact .reset ⟨rest, hi⟩
  · rw [← dequeue_of_inputs hi]; exact .released
  · rw [← dequeue_of_inputs hi] at ha
    obtain ⟨hr, ⟨i, hd, he⟩ | ⟨e, -, -, rfl⟩⟩ := hostAccess_cases ha
    · exact exec_event hr hi hd he
    · exact .answered .busError hr

end Sys2Proof.Machine
end

section
/-! PROOFS. The invariant: it holds at reset, every event keeps it, so it holds in every reachable state. -/

namespace Sys2Proof.Machine

/-! ### What a data write and an effect leave unchanged -/

theorem writeReg_eq {r : Reg} (hne : r ≠ .cmd) (v : Word) (s : State) :
    writeReg r v s = { s with
      key := (writeReg r v s).key, bin := (writeReg r v s).bin, tag := (writeReg r v s).tag
      hkey := (writeReg r v s).hkey } := by
  cases r with
  | cmd => exact absurd rfl hne
  | _ => rfl

theorem effect_eq (p : Pending) (s : State) :
    effect p s = { s with
      key := (effect p s).key, bin := (effect p s).bin, bout := (effect p s).bout, tag := (effect p s).tag
      hkey := (effect p s).hkey, rk := (effect p s).rk, kv := (effect p s).kv, ksz := (effect p s).ksz } := by
  cases p <;> rfl

/-! ### The round-key RAM and its flags -/

/-- The part of `Inv` about RK, KV and KSZ (R43, R29, R30). -/
def ScheduleValid (s : State) : Prop :=
  (s.kv = false → s.ksz = false ∧ s.rk = Vector.replicate 28 0) ∧
  (s.kv = true → ∃ key, s.rk = expandKey (if s.ksz then 32 else 16) key)

theorem Inv.scheduleValid {s : State} (h : Inv s) : ScheduleValid s := ⟨h.noSchedule, h.holdsSchedule⟩

theorem scheduleValid_completeExpand {len : Len} (hl : len = 16 ∨ len = 32) (key : Vector Word 8) (s : State) :
    ScheduleValid (completeExpand len key s) := by
  refine ⟨(fun h => nomatch h), fun _ => ⟨key, ?_⟩⟩
  obtain rfl | rfl := hl <;> rfl

/-- Only EXPAND and ZEROIZE write the schedule, and the check passed when the command was latched. -/
theorem scheduleValid_effect {s : State} {p : Pending} (h : ScheduleValid s)
    (hc : check (.cmd (pendingOp p) (pendingLen p)) s.kv = .none) : ScheduleValid (effect p s) := by
  cases p with
  | expand len key => exact scheduleValid_completeExpand ((check_none_iff _ _ _).1 hc) key s
  | zeroize len => exact ⟨fun _ => ⟨rfl, rfl⟩, fun h => nomatch h⟩
  | encrypt | decrypt | ghashUpdate => exact h

/-! ### The latch -/

theorem latchedFrom_snapshot {op : Op} {len : Len} {s : State} (h : Acceptable op len s.kv) :
    latchedFrom s (snapshot op len s) := by
  have hc := (check_none_iff op len s.kv).2 h
  cases op <;> exact ⟨rfl, hc⟩

theorem Inv.pend_of_idle {s : State} (h : Inv s) (hi : s.phase = .idle) : s.pend = none := by
  by_contra hp
  cases (h.busyLatched.2 hp).symm.trans hi

theorem Inv.inReset_of_busy {s : State} (h : Inv s) (hb : s.phase = .busy) : s.inReset = false := by
  by_contra hr
  have hs := h.heldInReset (Bool.eq_true_of_not_eq_false hr)
  rw [hs] at hb
  cases hb

theorem Inv.err_of_busy {s : State} (h : Inv s) (hb : s.phase = .busy) : s.err = false := by
  by_contra he
  cases (h.errIdle (Bool.eq_true_of_not_eq_false he)).1.symm.trans hb

/-! ### States that meet the invariant -/

/-- An idle core out of reset: nothing is latched, so R40 asks nothing. -/
theorem inv_of_idle {s : State} (hi : s.phase = .idle) (hp : s.pend = none) (hr : s.inReset = false)
    (hs : ScheduleValid s) (hd : s.err = true → s.done = true) (hc : s.errCode ≠ .none ↔ s.err = true) : Inv s where
  noSchedule := hs.1
  holdsSchedule := hs.2
  busyLatched := by simp [hi, hp]
  busyNotDone hb := by simp [hi] at hb
  errIdle he := ⟨hi, hd he⟩
  errCodeErr := hc
  latched _ h := by simp [hp] at h
  heldInReset h := by simp [hr] at h

theorem inv_assertReset (s : State) : Inv (assertReset s) where
  noSchedule _ := ⟨rfl, rfl⟩
  holdsSchedule h := nomatch h
  busyLatched := by simp
  busyNotDone h := nomatch h
  errIdle h := nomatch h
  errCodeErr := by simp
  latched _ h := nomatch h
  heldInReset _ := rfl

theorem inv_reset (platform : Platform) (inputs : List Input) :
    Inv { State.reset with platform := platform, inputs := inputs } :=
  inv_of_idle rfl rfl rfl ⟨fun _ => ⟨rfl, rfl⟩, fun h => nomatch h⟩ (fun h => nomatch h) (by simp [State.reset])

/-- Settles O40: reset is an idle state with no schedule and no error. -/
theorem invariantHoldsAtReset : Obligations.InvariantHoldsAtReset := inv_reset

/-! ### Each event keeps it -/

section
variable {s : State} (h : Inv s)
include h

/-- The invariant asks nothing of OVR, of the port's answer and of the events, but while reset is asserted. -/
theorem Inv.port (hr : s.inReset = false) (ovr : Bool) (resp : Response) (inputs : List Input) :
    Inv { s with ovr := ovr, resp := resp, inputs := inputs } where
  noSchedule := h.noSchedule
  holdsSchedule := h.holdsSchedule
  busyLatched := h.busyLatched
  busyNotDone := h.busyNotDone
  errIdle := h.errIdle
  errCodeErr := h.errCodeErr
  latched := h.latched
  heldInReset hr' := by simp [hr] at hr'

theorem Inv.dequeue : Inv (dequeue s) := by
  by_cases hr : s.inReset = true
  · have hs := h.heldInReset hr
    rw [hs]
    exact inv_assertReset { s with inputs := s.inputs.tail }
  · exact h.port (Bool.eq_false_of_not_eq_true hr) s.ovr s.resp s.inputs.tail

theorem Inv.respond (hr : s.inReset = false) (r : Response) : Inv (respond r s) := h.port hr s.ovr r s.inputs

theorem Inv.droppedState (hr : s.inReset = false) : Inv (droppedState s) := h.port hr true .ack s.inputs

theorem Inv.releaseReset : Inv (releaseReset s) where
  noSchedule := h.noSchedule
  holdsSchedule := h.holdsSchedule
  busyLatched := h.busyLatched
  busyNotDone := h.busyNotDone
  errIdle := h.errIdle
  errCodeErr := h.errCodeErr
  latched := h.latched
  heldInReset hr := nomatch hr

theorem Inv.finish_effect {p : Pending} (hb : s.phase = .busy) (hp : s.pend = some p) : Inv (finish (effect p s)) := by
  have hs : ScheduleValid (effect p s) := scheduleValid_effect h.scheduleValid (h.latched p hp).2
  rw [effect_eq] at hs ⊢
  exact inv_of_idle rfl rfl (h.inReset_of_busy hb) hs (fun _ => rfl) h.errCodeErr

theorem Inv.writeReg {r : Reg} (hne : r ≠ .cmd) (v : Word) (hi : s.phase = .idle) (hr : s.inReset = false) :
    Inv (writeReg r v s) := by
  rw [writeReg_eq hne]
  exact inv_of_idle hi (h.pend_of_idle hi) hr h.scheduleValid (fun he => (h.errIdle he).2) h.errCodeErr

theorem Inv.acceptedState {op : Op} {len : Len} (hr : s.inReset = false) (ha : Acceptable op len s.kv) :
    Inv (acceptedState (snapshot op len s) s) where
  noSchedule := h.noSchedule
  holdsSchedule := h.holdsSchedule
  busyLatched := ⟨(fun _ h => nomatch h), fun _ => rfl⟩
  busyNotDone _ := rfl
  errIdle he := nomatch he
  errCodeErr := by simp [Machine.acceptedState]
  latched p hp := by
    injection hp with hp
    exact hp ▸ latchedFrom_snapshot ha
  heldInReset hr' := by simp [Machine.acceptedState, hr] at hr'

theorem Inv.rejectedState {e : ErrCode} (hi : s.phase = .idle) (hr : s.inReset = false) (he : e ≠ .none) :
    Inv (rejectedState e s) :=
  inv_of_idle hi (h.pend_of_idle hi) hr h.scheduleValid (fun _ => rfl) ⟨fun _ => rfl, fun _ => he⟩

end

theorem Inv.event {s t : State} (h : Inv s) (e : Event s t) : Inv t := by
  have h := h.dequeue
  cases e with
  | reset hr => exact inv_assertReset _
  | released => exact h.releaseReset
  | waits => exact h
  | completed p hc hp => exact h.finish_effect hc.2.1 hp
  | answered r hr => exact h.respond hr r
  | dropped hr _ => exact h.droppedState hr
  | written r v hr hne hw => exact (h.writeReg hne v hw.1 hr).respond (by rwa [writeReg_eq hne]) .ack
  | accepted op len hr _ ha => exact h.acceptedState hr ha
  | rejected e hr hi he => exact h.rejectedState hi.1 hr he

/-- Settles O41, event by event. -/
theorem everyStepKeepsTheInvariant : Obligations.EveryStepKeepsTheInvariant :=
  fun _ _ h hs => h.event (step_event hs)

theorem inv_of_run {t : State} (n : Nat) {s : State} (h : Inv s) (hr : Host.Core.run core n s = .next t) : Inv t := by
  induction n generalizing s with
  | zero =>
    injection hr with hr
    exact hr ▸ h
  | succ n ih =>
    obtain ⟨u, hs, hu⟩ := run_next hr
    exact ih (everyStepKeepsTheInvariant s u h hs) hu

theorem Reachable.inv {t : State} : Reachable t → Inv t
  | ⟨platform, inputs, n, hr⟩ => inv_of_run n (inv_reset platform inputs) hr

theorem rkSlot_expandKey_16 (key : Vector Word 8) {j : Nat} (h1 : 20 ≤ j) (h2 : j ≤ 27) :
    rkSlot (expandKey 16 key) j = 0 := by
  rw [expandKey, if_pos rfl, rkSlot_schedule _ _ (by omega), scheduleSlot, if_neg (by omega), if_neg (by omega)]

/-- Settles O42: the invariant holds in every reachable state, and it gives the five sentences of R43. -/
theorem reachableStatesMeetTheStatedInvariants : Obligations.ReachableStatesMeetTheStatedInvariants := by
  intro t ht
  have h := ht.inv
  have hbusy : busy t = true ↔ t.phase = .busy := by simp [busy]
  refine ⟨fun hk => ?_, fun hk hz j h1 h2 => ?_, ?_, fun he => ?_, h.errCodeErr⟩
  · obtain ⟨hz, hrk⟩ := h.noSchedule hk
    exact ⟨hz, fun j _ => by rw [hrk, rkSlot_replicate]⟩
  · obtain ⟨key, hrk⟩ := h.holdsSchedule hk
    rw [hrk, hz]
    exact rkSlot_expandKey_16 key h1 h2
  · rw [hbusy, ← h.busyLatched, and_self]
  · obtain ⟨hi, hd⟩ := h.errIdle he
    exact ⟨by simp [busy, hi], hd⟩

end Sys2Proof.Machine
end

section
/-! PROOFS. Key material is not readable: every step acts on the public part of the state alone, but for the
completions that compute a block or a tag. -/

namespace Sys2Proof.Machine

/-! ### The public part -/

theorem map_pendingPublic_idem (o : Option Pending) :
    (o.map pendingPublic).map pendingPublic = o.map pendingPublic := by
  cases o with
  | none => rfl
  | some p => cases p <;> rfl

theorem publicPart_idem (s : State) : publicPart (publicPart s) = publicPart s := by
  rw [publicPart, publicPart, map_pendingPublic_idem]

theorem pendingOp_pendingPublic (p : Pending) : pendingOp (pendingPublic p) = pendingOp p := by
  cases p <;> rfl

/-- `f` does to the public part what it does to it without the key material. -/
def ActsOnPublicPart (f : State → State) : Prop :=
  ∀ s, publicPart (f s) = publicPart (f (publicPart s))

theorem ActsOnPublicPart.of_commutes {f : State → State} (h : ∀ s, publicPart (f s) = f (publicPart s)) :
    ActsOnPublicPart f := fun s => by rw [← h, publicPart_idem]

/-! ### Instructions -/

theorem readReg_publicPart (r : Reg) (s : State) : readReg r (publicPart s) = readReg r s := by
  cases r <;> rfl

/-- A write to KEY or HKEY leaves the public part as it is, any other data write takes place in it. -/
theorem writeReg_actsOnPublicPart {r : Reg} (hne : r ≠ .cmd) (v : Word) : ActsOnPublicPart (writeReg r v) := by
  intro s
  cases r with
  | cmd => exact absurd rfl hne
  | key | hkey | status | rsvLow | rsvHigh | bout => exact (publicPart_idem s).symm
  | bin j => exact congrArg (fun u => { u with bin := s.bin.set j v }) (publicPart_idem s).symm
  | tag j => exact congrArg (fun u => { u with tag := s.tag.set j v }) (publicPart_idem s).symm

theorem publicPart_accept (op : Op) (len : Len) (s : State) :
    publicPart (accept op len s) = accept op len (publicPart s) := by
  cases op <;> rfl

/-- The check sees the command and KV only, so the outcome of an issue is public. -/
theorem publicPart_issue (c : Command) (s : State) : publicPart (issue c s) = issue c (publicPart s) := by
  have hk : (publicPart s).kv = s.kv := rfl
  by_cases he : check c s.kv = .none
  · cases c with
    | illegal w => cases he
    | cmd op len =>
      have ha := (check_none_iff op len s.kv).1 he
      rw [issue_of_acceptable ha, issue_of_acceptable (hk ▸ ha), publicPart_accept]
      rfl
  · rw [issue_of_check rfl he, issue_of_check (congrArg _ hk) he]
    rfl

theorem busWrite_actsOnPublicPart {f : State → State} (hf : ActsOnPublicPart f) : ActsOnPublicPart (busWrite f) := by
  intro s
  have hph : (publicPart s).phase = s.phase := rfl
  cases hp : s.phase with
  | busy =>
    rw [busWrite_busy hp, busWrite_busy (hph.trans hp)]
    exact ActsOnPublicPart.of_commutes (f := droppedState) (fun _ => rfl) s
  | idle =>
    rw [busWrite_idle hp, busWrite_idle (hph.trans hp)]
    exact congrArg (respond .ack) (hf s)

/-! ### The core's turn -/

theorem completes_publicPart (op : Op) (s : State) : completes op (publicPart s) ↔ completes op s := by
  have h : (∃ p, s.pend.map pendingPublic = some p ∧ pendingOp p = op) ↔ ∃ p, s.pend = some p ∧ pendingOp p = op := by
    simp [pendingOp_pendingPublic]
  exact and_congr_right fun _ => and_congr_right fun _ => h

/-- What EXPAND and ZEROIZE write in the public part does not depend on any key. -/
theorem publicPart_effect {p : Pending} (h : pendingOp p = .expand ∨ pendingOp p = .zeroize) (s : State) :
    publicPart (finish (effect p s)) = publicPart (finish (effect (pendingPublic p) (publicPart s))) := by
  cases p with
  | expand | zeroize => rfl
  | encrypt | decrypt | ghashUpdate => rcases h with h | h <;> cases h

theorem publicPart_coreTurn {s : State}
    (h : ∀ p, s.phase = .busy → s.pend = some p → pendingOp p = .expand ∨ pendingOp p = .zeroize) :
    publicPart (coreTurn s) = publicPart (coreTurn (publicPart s)) := by
  obtain ⟨hi, e⟩ | ⟨hb, hp, e⟩ | ⟨p, hb, hp, e⟩ := coreTurn_cases s
  · rw [e, coreTurn_idle (s := publicPart s) hi, publicPart_idem]
  · have hp' : (publicPart s).pend = none := congrArg (Option.map pendingPublic) hp
    have e' : coreTurn (publicPart s) = publicPart s := by
      obtain ⟨-, e'⟩ | ⟨-, -, e'⟩ | ⟨p, -, hp'', -⟩ := coreTurn_cases (publicPart s)
      · exact e'
      · exact e'
      · cases hp'.symm.trans hp''
    rw [e, e', publicPart_idem]
  · have hp' : (publicPart s).pend = some (pendingPublic p) := congrArg (Option.map pendingPublic) hp
    rw [e, coreTurn_busy (s := publicPart s) hb hp', publicPart_effect (h p hb hp)]

/-! ### A step -/

theorem step_absent {s : State} (hp : s.platform.present = false) : step s = .refused .coreAbsent := by
  simp [step, hp]

theorem step_coreMoves {s : State} (hp : s.platform.present = true) (hm : coreMoves s) :
    step s = .next (coreTurn (dequeue s)) := by
  obtain hi | ⟨rest, hi⟩ := hm
  · rw [step_nil hp hi, dequeue, hi, List.tail_nil, ← hi]
  · rw [step_coreTurn hp hi, dequeue_of_inputs hi]

/-- An outcome without the key material of its next state; a stop carries none. -/
def publicResult : Result → Result
  | .next t => .next (publicPart t)
  | .fault r => .fault r
  | .refused r => .refused r

theorem publicResult_exec (i : Instr) (s : State) : publicResult (exec i s) = publicResult (exec i (publicPart s)) := by
  obtain ⟨r, rfl⟩ | ⟨r, v, hne, rfl⟩ | ⟨c, hc⟩ := instr_cases i
  · have h : ActsOnPublicPart (respond (.data (readReg r s))) := .of_commutes fun _ => rfl
    have hs : exec (.rd r) (publicPart s) = .next (respond (.data (readReg r s)) (publicPart s)) := by
      rw [← readReg_publicPart]; rfl
    rw [hs]
    exact congrArg Host.Outcome.next (h s)
  · exact congrArg Host.Outcome.next (busWrite_actsOnPublicPart (writeReg_actsOnPublicPart hne v) s)
  · rw [hc, hc]
    exact congrArg Host.Outcome.next (busWrite_actsOnPublicPart (.of_commutes (publicPart_issue c)) s)

theorem publicResult_hostAccess (a : Access) (s : State) :
    publicResult (hostAccess a s) = publicResult (hostAccess a (publicPart s)) := by
  have hb : (publicPart s).platform.base = s.platform.base := rfl
  have hr : (publicPart s).inReset = s.inReset := rfl
  unfold hostAccess
  rw [hb, hr]
  cases decodeAccess s.platform.base a with
  | ok i =>
    cases s.inReset with
    | true => rfl
    | false => exact publicResult_exec i s
  | error e =>
    have herr : publicPart (busErrorAccess s) = publicPart (busErrorAccess (publicPart s)) :=
      ActsOnPublicPart.of_commutes (f := busErrorAccess) (fun _ => rfl) s
    cases e with
    | outsideWindow => rfl
    | size | misaligned | byteEnables =>
      cases s.inReset with
      | true => rfl
      | false => exact congrArg Host.Outcome.next herr

theorem publicResult_step {s : State} (h1 : ¬ completes .encrypt s) (h2 : ¬ completes .decrypt s)
    (h3 : ¬ completes .ghashUpdate s) : publicResult (step s) = publicResult (step (publicPart s)) := by
  have hturn (hm : coreMoves s) :
      publicPart (coreTurn (dequeue s)) = publicPart (coreTurn (publicPart (dequeue s))) := by
    refine publicPart_coreTurn fun p hb hp => ?_
    have hc : completes (pendingOp p) s := ⟨hm, hb, p, hp, rfl⟩
    cases p with
    | expand => exact .inl rfl
    | zeroize => exact .inr rfl
    | encrypt => exact absurd hc h1
    | decrypt => exact absurd hc h2
    | ghashUpdate => exact absurd hc h3
  cases hp : s.platform.present with
  | false => rw [step_absent hp, step_absent (s := publicPart s) hp]
  | true =>
    cases hi : s.inputs with
    | nil =>
      rw [step_coreMoves hp (.inl hi), step_coreMoves (s := publicPart s) hp (.inl hi)]
      exact congrArg Host.Outcome.next (hturn (.inl hi))
    | cons e rest =>
      cases e with
      | access a =>
        rw [step_access hp hi, step_access (s := publicPart s) hp hi]
        exact publicResult_hostAccess a _
      | coreTurn =>
        have hm : coreMoves s := .inr ⟨rest, hi⟩
        rw [step_coreMoves hp hm, step_coreMoves (s := publicPart s) hp hm]
        exact congrArg Host.Outcome.next (hturn hm)
      | resetAssert =>
        rw [step_resetAssert hp hi, step_resetAssert (s := publicPart s) hp hi]
        rfl
      | resetRelease =>
        rw [step_resetRelease hp hi, step_resetRelease (s := publicPart s) hp hi]
        exact congrArg Host.Outcome.next
          (ActsOnPublicPart.of_commutes (f := releaseReset) (fun _ => rfl) { s with inputs := rest })

/-- Settles O45: the steps of both states have the public outcome of the step of their common public part. -/
theorem keyMaterialIsNotReadable : Obligations.KeyMaterialIsNotReadable := by
  intro s₁ s₂ t₁ hs h1 h2 h3 hstep
  have hc (op : Op) : ¬ completes op s₁ → ¬ completes op s₂ :=
    mt fun h => (completes_publicPart op s₁).1 (hs ▸ (completes_publicPart op s₂).2 h)
  have h : publicResult (step s₂) = .next (publicPart t₁) :=
    calc publicResult (step s₂)
      _ = publicResult (step (publicPart s₂)) := publicResult_step (hc _ h1) (hc _ h2) (hc _ h3)
      _ = publicResult (step (publicPart s₁)) := by rw [hs]
      _ = publicResult (step s₁) := (publicResult_step h1 h2 h3).symm
      _ = .next (publicPart t₁) := by rw [hstep]; rfl
  cases ht : step s₂ with
  | next t₂ =>
    rw [ht] at h
    injection h with h
    exact ⟨t₂, rfl, h.symm⟩
  | fault r => rw [ht] at h; cases h
  | refused r => rw [ht] at h; cases h

end Sys2Proof.Machine
end

section
/-! PROOFS. Which event may change which register and which STATUS flag, and the event table of STATUS. -/

namespace Sys2Proof.Machine

/-! ### Registers and flags over every step -/

/-- Settles O43: each event's own writes, the latched command and the register written taken apart. -/
theorem registersChangeOnlyByTheirWriters : Obligations.RegistersChangeOnlyByTheirWriters := by
  intro s t h
  cases step_event h with
  | reset hr => simp [hr]
  | released | waits | answered | dropped | accepted | rejected => simp [droppedState, acceptedState, rejectedState]
  | completed p hc =>
    cases p with
    | expand | encrypt | decrypt | ghashUpdate | zeroize =>
      rw [pendingOp] at hc
      simp [effect, hc]
  | written r v _ hne hw =>
    cases r with
    | cmd => exact absurd rfl hne
    | status | rsvLow | rsvHigh | bout => simp [writeReg]
    | key j | bin j | tag j | hkey j =>
      simp only [writeReg, respond_rk, ne_eq, not_true_eq_false, respond_kv, respond_ksz, or_self,
        IsEmpty.forall_iff, respond_key, respond_bin, respond_bout, respond_tag, respond_hkey, and_self, and_true,
        true_and]
      exact fun _ => .inl ⟨j, hw⟩

/-- Settles O44: each event's own writes; a data write touches no flag. -/
theorem flagsChangeOnlyByTheirEvents : Obligations.FlagsChangeOnlyByTheirEvents := by
  intro s t h
  cases step_event h with
  | reset hr => simp [hr]
  | released | waits | answered => simp +contextual
  | dropped _ hd => simp [droppedState, hd]
  | accepted _ _ _ hi | rejected _ _ hi => simp [acceptedState, rejectedState, hi]
  | completed p hc =>
    have hany : ∃ op, completes op s := ⟨_, hc⟩
    cases p with
    | expand | encrypt | decrypt | ghashUpdate | zeroize =>
      rw [pendingOp] at hc
      simp +contextual [effect, hc, hany]
  | written r v _ hne =>
    rw [writeReg_eq hne]
    simp +contextual

/-! ### Reads and writes -/

theorem exec_rd (r : Reg) (s : State) : exec (.rd r) s = .next (respond (.data (readReg r s)) s) := rfl

theorem exec_wr_idle {s : State} (hi : s.phase = .idle) (r : Reg) (v : Word) :
    exec (.wr r v) s = .next (respond .ack (writeReg r v s)) :=
  congrArg Host.Outcome.next (busWrite_idle hi (writeReg r v))

theorem exec_wr_busy {s : State} (hb : s.phase = .busy) (r : Reg) (v : Word) :
    exec (.wr r v) s = .next (droppedState s) :=
  congrArg Host.Outcome.next (busWrite_busy hb (writeReg r v))

/-! ### The event table -/

@[simp] theorem flagsOf_respond (r : Response) (s : State) : flagsOf (respond r s) = flagsOf s := rfl

theorem flagsOf_writeReg {r : Reg} (hne : r ≠ .cmd) (v : Word) (s : State) :
    flagsOf (writeReg r v s) = flagsOf s := by
  rw [writeReg_eq hne]; rfl

theorem flagsOf_acceptedState (p : Pending) (s : State) : flagsOf (acceptedState p s) =
    { flagsOf s with busy := true, done := false, err := false, ovr := false, errCode := .none } := rfl

theorem flagsOf_rejectedState (e : ErrCode) {s : State} (hi : s.phase = .idle) : flagsOf (rejectedState e s) =
    { flagsOf s with busy := false, done := true, err := true, ovr := false, errCode := e } := by
  have hb : busy (rejectedState e s) = false := by simp [busy, rejectedState, hi]
  rw [flagsOf, hb]; rfl

theorem flagsOf_droppedState (s : State) : flagsOf (droppedState s) = { flagsOf s with ovr := true } := rfl

/-- A completion sets DONE and clears BUSY; of the other flags it may change KV and KSZ only. -/
theorem flagsOf_finish_effect (p : Pending) (s : State) : flagsOf (finish (effect p s)) =
    { flagsOf s with busy := false, done := true, kv := (effect p s).kv, ksz := (effect p s).ksz } := by
  rw [effect_eq]; rfl

/-- Settles O22, row by row, each by the state its event leads to. -/
theorem statusEventTable : Obligations.StatusEventTable := by
  intro s
  refine ⟨fun op len hi ha => ⟨_, exec_acceptable hi ha, flagsOf_acceptedState _ s⟩,
    fun c e hi hc he => ⟨_, exec_rejected hi hc he, flagsOf_rejectedState e hi⟩,
    fun len key hb hp hl => ?_, fun len key hb hp hl => ?_, fun p hb hp hop => ?_, fun len hb hp => ?_,
    fun r v hb => ⟨_, exec_wr_busy hb r v, flagsOf_droppedState s⟩, rfl,
    fun r => ⟨_, exec_rd r s, flagsOf_respond _ s⟩,
    fun r v hi hne => ⟨_, exec_wr_idle hi r v, flagsOf_writeReg hne v s⟩,
    fun hi => by rw [coreTurn_idle hi], rfl, rfl⟩
  · rw [coreTurn_busy hb hp, flagsOf_finish_effect, hl]; rfl
  · rw [coreTurn_busy hb hp, flagsOf_finish_effect, hl]; rfl
  · rw [coreTurn_busy hb hp, flagsOf_finish_effect]
    cases p with
    | encrypt | decrypt | ghashUpdate => rfl
    | expand | zeroize => simp [pendingOp] at hop
  · rw [coreTurn_busy hb hp, flagsOf_finish_effect]; rfl

end Sys2Proof.Machine
end

section
/-! PROOFS. The register map: what a read returns, what a write stores, the bits of STATUS, the values at reset. -/

namespace Sys2Proof.Machine

/-! ### The word of STATUS -/

theorem getLsbD_statusWord (s : State) :
    (statusWord s).getLsbD 0 = busy s ∧ (statusWord s).getLsbD 1 = s.done ∧ (statusWord s).getLsbD 2 = s.err ∧
    (statusWord s).getLsbD 3 = s.ovr ∧ (statusWord s).getLsbD 4 = s.kv ∧ (statusWord s).getLsbD 5 = s.ksz := by
  simp only [statusWord, BitVec.getLsbD_append]
  simp

theorem extractLsb'_statusWord_errCode (s : State) : (statusWord s).extractLsb' 8 3 = errCodeBits s.errCode := by
  ext i hi
  simp only [statusWord, BitVec.getElem_extractLsb', BitVec.getLsbD_append]
  interval_cases i <;> simp

theorem extractLsb'_statusWord_reserved (s : State) :
    (statusWord s).extractLsb' 6 2 = 0 ∧ (statusWord s).extractLsb' 11 21 = 0 := by
  constructor <;>
  · ext i hi
    simp only [statusWord, BitVec.getElem_extractLsb', BitVec.getLsbD_append]
    interval_cases i <;> simp

/-- Settles O10: a read of STATUS returns `statusWord`, whose fields the lemmas above give. -/
theorem statusReservedBitsReadZero : Obligations.StatusReservedBitsReadZero := by
  intro s
  obtain ⟨hbusy, hdone, herr, hovr, hkv, hksz⟩ := getLsbD_statusWord s
  obtain ⟨h6, h11⟩ := extractLsb'_statusWord_reserved s
  exact ⟨statusWord s, rfl, h6, h11, by rw [hbusy]; simp [busy], hdone, herr, hovr, hkv, hksz,
    extractLsb'_statusWord_errCode s⟩

/-! ### Reads and writes -/

/-- Settles O9: `exec_rd` with the value `readReg` gives for each register. -/
theorem readsReturnTheRegisterMap : Obligations.ReadsReturnTheRegisterMap := by
  intro s
  exact ⟨exec_rd .cmd s, exec_rd .status s, fun j => exec_rd (.rsvLow j) s, fun j => exec_rd (.key j) s,
    fun j => exec_rd (.bin j) s, fun j => exec_rd (.bout j) s, fun j => exec_rd (.tag j) s,
    fun j => exec_rd (.hkey j) s, fun j => exec_rd (.rsvHigh j) s⟩

/-- Settles O11: `exec_wr_idle` with the state `writeReg` gives for each register. -/
theorem idleWritesFollowTheRegisterMap : Obligations.IdleWritesFollowTheRegisterMap := by
  intro s v hi
  have h (r : Reg) := exec_wr_idle hi r v
  exact ⟨fun j => h (.key j), fun j => h (.bin j), fun j => h (.tag j), fun j => h (.hkey j), h .status,
    fun j => h (.bout j), fun j => h (.rsvLow j), fun j => h (.rsvHigh j)⟩

/-- Settles O12, by the decoding of the word in `writeReg .cmd`. -/
theorem writeToCmdRunsItsWord : Obligations.WriteToCmdRunsItsWord := fun s v => (exec_decodeWord v s).symm

theorem getElem_set_fin {α : Type} {n : Nat} (g : Vector α n) (j k : Fin n) (v : α) :
    (g.set j v)[k] = if k = j then v else g[k] := by
  simp [Vector.getElem_set, Fin.ext_iff, eq_comm]

/-- Settles O14: the read sees the group with its word `j` set. -/
theorem readAfterWriteReturnsTheValue : Obligations.ReadAfterWriteReturnsTheValue := by
  intro s j v hi
  refine ⟨⟨_, exec_wr_idle hi (.bin j) v, fun k => ?_⟩, ⟨_, exec_wr_idle hi (.tag j) v, fun k => ?_⟩⟩
  · rw [exec_rd, ← getElem_set_fin]; rfl
  · rw [exec_rd, ← getElem_set_fin]; rfl

/-! ### Reset -/

theorem readReg_reset (r : Reg) : readReg r State.reset = 0 := by
  cases r with
  | cmd | rsvLow | rsvHigh | key | hkey => rfl
  | status => decide
  | bin | bout | tag => exact Vector.getElem_replicate _

/-- Settles O38, by the literal of `State.reset`. -/
theorem resetValuesAreZero : Obligations.ResetValuesAreZero :=
  ⟨readReg_reset, rfl, rfl, rfl, rfl, rfl, rkSlot_replicate, rfl, rfl, rfl⟩

end Sys2Proof.Machine
end

section
/-! PROOFS. How a four-word register group and the key registers pack the bytes of a block (R56). -/

namespace Sys2Proof.Machine

/-- Byte 0 of a word stands in bits 31:24, byte 3 in bits 7:0. -/
theorem wordOfBytes_eq_or (b0 b1 b2 b3 : Byte) : wordOfBytes b0 b1 b2 b3 =
    (b0.setWidth 32 <<< 24) ||| (b1.setWidth 32 <<< 16) ||| (b2.setWidth 32 <<< 8) ||| b3.setWidth 32 := by
  apply BitVec.eq_of_getLsbD_eq
  intro i hi
  simp only [wordOfBytes, BitVec.getLsbD_append, BitVec.getLsbD_or, BitVec.getLsbD_shiftLeft, BitVec.getLsbD_setWidth]
  interval_cases i <;> simp

theorem wordOfBytes_wordByte (w : Word) :
    wordOfBytes (wordByte w 0) (wordByte w 1) (wordByte w 2) (wordByte w 3) = w := by
  refine word_ext_bytes fun k hk => ?_
  obtain ⟨h0, h1, h2, h3⟩ := wordByte_wordOfBytes (wordByte w 0) (wordByte w 1) (wordByte w 2) (wordByte w 3)
  interval_cases k <;> assumption

theorem blockByte_four_mul_add (b : Block) {j k : Nat} (hj : j < 4) (hk : k < 4) :
    blockByte b (4 * j + k) = wordByte (blockWord b j) k := by
  rw [blockByte_eq b (by omega), show (4 * j + k) / 4 = j by omega, show (4 * j + k) % 4 = k by omega]

theorem blockWord_eq_wordOfBytes (b : Block) {j : Nat} (hj : j < 4) : blockWord b j =
    wordOfBytes (blockByte b (4 * j)) (blockByte b (4 * j + 1)) (blockByte b (4 * j + 2))
      (blockByte b (4 * j + 3)) := by
  have h (k : Nat) (hk : k < 4) : blockByte b (4 * j + k) = wordByte (blockWord b j) k :=
    blockByte_four_mul_add b hj hk
  have h0 : blockByte b (4 * j) = wordByte (blockWord b j) 0 := h 0 (by decide)
  rw [h0, h 1 (by decide), h 2 (by decide), h 3 (by decide), wordOfBytes_wordByte]

theorem blockWord_blockOfGroup (g : Vector Word 4) (j : Fin 4) : blockWord (blockOfGroup g) j = g[j] := by
  obtain ⟨h0, h1, h2, h3⟩ := blockWord_blockOfWords g[0] g[1] g[2] g[3]
  fin_cases j <;> assumption

/-- Byte `n` of the key, n = 0..31: the low block holds bytes 0 to 15 (R56). -/
def keyByte (k : Vector Word 8) (n : Nat) : Byte :=
  if n < 16 then blockByte (keyLow k) n else blockByte (keyHigh k) (n - 16)

theorem keyByte_low (k : Vector Word 8) {n : Nat} (h : n < 16) : keyByte k n = blockByte (keyLow k) n := if_pos h

theorem keyByte_high (k : Vector Word 8) (n : Nat) : keyByte k (16 + n) = blockByte (keyHigh k) n := by
  rw [keyByte, if_neg (by omega), Nat.add_sub_cancel_left]

theorem key_eq_wordOfBytes (k : Vector Word 8) (j : Fin 8) : k[j] =
    wordOfBytes (keyByte k (4 * j)) (keyByte k (4 * j + 1)) (keyByte k (4 * j + 2)) (keyByte k (4 * j + 3)) := by
  obtain ⟨j, hj⟩ := j
  by_cases hlow : j < 4
  · have h := blockWord_eq_wordOfBytes (keyLow k) hlow
    rw [blockWord_keyLow k hlow] at h
    simp (disch := omega) only [keyByte_low]
    exact h
  · obtain ⟨m, rfl⟩ := Nat.exists_eq_add_of_le (Nat.le_of_not_lt hlow)
    have h := blockWord_eq_wordOfBytes (keyHigh k) (show m < 4 by omega)
    rw [blockWord_keyHigh k (by omega)] at h
    simp only [Nat.mul_add, Nat.add_assoc, Nat.reduceMul, keyByte_high]
    exact h

/-- Settles O16: each register word is `wordOfBytes` of its four bytes. -/
theorem registerWordsPackBigEndian : Obligations.RegisterWordsPackBigEndian := by
  refine ⟨fun g j => ?_, blockOfGroup_groupOfBlock, fun k j => ?_⟩
  · rw [← wordOfBytes_eq_or, ← blockWord_eq_wordOfBytes _ j.isLt, blockWord_blockOfGroup]
  · exact (key_eq_wordOfBytes k j).trans (wordOfBytes_eq_or _ _ _ _)

end Sys2Proof.Machine
end

section
/-! PROOFS. What the decoder gives: well-formed instructions, and for an accepted access a word at an aligned offset. -/

namespace Sys2Proof

/-- The mask form of R75: each command has its match. -/
theorem decodeCommand_of_mask {w : Word} {op : Op} (h : w &&& 0xFFFFC0FF = (opCode op).setWidth 32) :
    decodeCommand w = .cmd op (w.extractLsb' 8 6) := by
  obtain ⟨hhigh, hlow, hop⟩ := mask_fields h
  simp [decodeCommand, hhigh, hlow, hop, opOfCode_opCode]

theorem isCommandWord_iff (w : Word) :
    isCommandWord w = true ↔ ∃ op, w &&& 0xFFFFC0FF = (opCode op).setWidth 32 := by
  constructor
  · intro h
    simp only [isCommandWord, List.contains_eq_mem, List.mem_cons, List.not_mem_nil, or_false, decide_eq_true_eq] at h
    obtain h | h | h | h | h := h
    · exact ⟨.expand, h⟩
    · exact ⟨.encrypt, h⟩
    · exact ⟨.decrypt, h⟩
    · exact ⟨.ghashUpdate, h⟩
    · exact ⟨.zeroize, h⟩
  · rintro ⟨op, h⟩
    rw [isCommandWord, h]
    cases op <;> decide

theorem decodeCommand_illegal {w v : Word} (h : decodeCommand w = .illegal v) : v = w ∧ isCommandWord w = false := by
  constructor
  · unfold decodeCommand at h
    split at h
    · injection h with h; exact h.symm
    · split at h
      · cases h
      · injection h with h; exact h.symm
  · rw [Bool.eq_false_iff]
    intro hc
    obtain ⟨op, hop⟩ := (isCommandWord_iff w).1 hc
    rw [decodeCommand_of_mask hop] at h
    cases h

theorem wellFormed_decodeWord (w : Word) : WellFormed (decodeWord w) := by
  rw [decodeWord]
  cases hc : decodeCommand w with
  | illegal v =>
    obtain ⟨rfl, hw⟩ := decodeCommand_illegal hc
    simp [instrOfCommand, WellFormed, Instr.wf, hw]
  | cmd op len => cases op <;> rfl

theorem wellFormed_of_decodeAccess {base : Nat} {a : Access} {i : Instr} (h : decodeAccess base a = .ok i) :
    WellFormed i := by
  obtain ⟨r, rfl⟩ | ⟨r, v, rfl, hne⟩ | ⟨w, rfl⟩ := decodeAccess_cases h
  · rfl
  · exact bne_iff_ne.2 hne
  · exact wellFormed_decodeWord w

/-- The access of a decoded instruction is one that R53 accepts, and it is a read exactly for `.rd`. -/
theorem decodeAccess_ok {base : Nat} {a : Access} {i : Instr} (h : decodeAccess base a = .ok i) :
    a.size = .word ∧ (a.addr - base) % 4 = 0 ∧
    (a.write = true ∧ a.lanes = 0xF ∨ a.write = false ∧ i = .rd (regOfIndex ((a.addr - base) / 4))) := by
  unfold decodeAccess at h
  split at h
  · cases h
  · split at h
    · cases h
    next hsize =>
    split at h
    · cases h
    next haligned =>
    refine ⟨not_not.1 hsize, not_not.1 haligned, ?_⟩
    split at h
    next hwrite =>
      split at h
      · cases h
      next hlanes => exact .inl ⟨hwrite, not_not.1 hlanes⟩
    next hread =>
      injection h with h
      exact .inr ⟨Bool.eq_false_of_not_eq_true hread, h.symm⟩

end Sys2Proof
end

section
/-! PROOFS. A host access at the port: where it stops, the bus error, the decoded instruction, and what it may change
while the core is BUSY. -/

namespace Sys2Proof.Machine

/-! ### Where a step stops -/

theorem hostAccess_outside {a : Access} {s : State}
    (h : a.addr < s.platform.base ∨ s.platform.base + windowBytes ≤ a.addr) :
    hostAccess a s = .fault .outsideWindow := by
  simp only [hostAccess, decodeAccess_outside h]

theorem hostAccess_inReset {a : Access} {s : State} (h1 : s.platform.base ≤ a.addr)
    (h2 : a.addr < s.platform.base + windowBytes) (hr : s.inReset = true) :
    hostAccess a s = .refused .accessDuringReset := by
  unfold hostAccess
  split
  · exact absurd ‹_› (decodeAccess_inside h1 h2)
  · rw [hr]
  · rw [hr]

theorem step_next {s : State} (hp : s.platform.present = true)
    (ha : ∀ a rest, s.inputs = .access a :: rest →
      s.platform.base ≤ a.addr ∧ a.addr < s.platform.base + windowBytes ∧ s.inReset = false) :
    ∃ t, step s = .next t := by
  cases hi : s.inputs with
  | nil => exact ⟨_, step_nil hp hi⟩
  | cons e rest =>
    cases e with
    | access a =>
      obtain ⟨h1, h2, hr⟩ := ha a rest hi
      rw [step_access hp hi]
      exact hostAccess_next hr h1 h2
    | coreTurn => exact ⟨_, step_coreTurn hp hi⟩
    | resetAssert => exact ⟨_, step_resetAssert hp hi⟩
    | resetRelease => exact ⟨_, step_resetRelease hp hi⟩

/-- Settles O6: the three stops of `step`, and `step_next` for every other state. -/
theorem stepStopsOnlyWhereTheSpecIsSilent : Obligations.StepStopsOnlyWhereTheSpecIsSilent := by
  intro s
  refine ⟨step_absent, fun a rest hp hi hout => ?_, fun a rest hp hi h1 h2 hr => ?_, step_next⟩
  · rw [step_access hp hi]
    exact hostAccess_outside hout
  · rw [step_access hp hi]
    exact hostAccess_inReset h1 h2 hr

/-! ### Bus errors -/

theorem hostAccess_error {a : Access} {s : State} {e : Reject} (hr : s.inReset = false)
    (hd : decodeAccess s.platform.base a = .error e) (he : e ≠ .outsideWindow) :
    hostAccess a s = .next (busErrorAccess s) := by
  cases e with
  | outsideWindow => exact absurd rfl he
  | size | misaligned | byteEnables => simp only [hostAccess, hd, hr]

/-- Settles O7: the decoder accepts no such access, and an access it rejects in the window gets the bus error. -/
theorem busErrorsChangeNothing : Obligations.BusErrorsChangeNothing := by
  intro s a rest hp hr hi h1 h2 hbad
  rw [step_access hp hi]
  cases hd : decodeAccess s.platform.base a with
  | error e => exact hostAccess_error hr hd fun he => decodeAccess_inside h1 h2 (he ▸ hd)
  | ok i =>
    obtain ⟨hsize, haligned, hwrite⟩ := decodeAccess_ok hd
    obtain hs | hal | ⟨hw, -, hl⟩ := hbad
    · exact absurd hsize hs
    · exact absurd haligned hal
    · obtain ⟨-, hlanes⟩ | ⟨hread, -⟩ := hwrite
      · exact absurd hlanes hl
      · cases hw.symm.trans hread

/-! ### The decoded instruction -/

theorem step_decoded {s : State} {a : Access} {rest : List Input} {i : Instr} (hp : s.platform.present = true)
    (hr : s.inReset = false) (hi : s.inputs = .access a :: rest) (hd : decodeAccess s.platform.base a = .ok i) :
    step s = exec i { s with inputs := rest } := by
  rw [step_access hp hi]
  exact hostAccess_ok hr hd

/-- Settles O1: the step is `step_decoded`, and the decoder gives only well-formed instructions. -/
theorem stepRunsTheDecodedInstruction : Obligations.StepRunsTheDecodedInstruction :=
  fun _ _ _ _ hp hr hi hd => ⟨wellFormed_of_decodeAccess hd, step_decoded hp hr hi hd⟩

/-- Settles O8: `withFetchWord` puts the write of the word to CMD first, and it decodes to the word's row. -/
theorem fetchedWordRuns : Obligations.FetchedWordRuns := by
  intro s w
  have hw : BitVec.ofNat 32 (w % 2 ^ 32) = BitVec.ofNat 32 w := BitVec.eq_of_toNat_eq (by simp)
  rw [← hw]
  exact step_decoded (s := s.withFetchWord 32 w) rfl rfl rfl (decodeAccess_write s.platform.base .cmd _)

/-! ### While BUSY -/

theorem exec_busy_frame {i : Instr} {s t : State} (hb : s.phase = .busy) (h : exec i s = .next t) :
    t = { s with ovr := t.ovr, resp := t.resp } := by
  obtain ⟨r, -, rfl⟩ | ⟨-, rfl⟩ | ⟨hi, -⟩ | ⟨hi, -⟩ | ⟨hi, -⟩ := exec_cases h
  · rfl
  · rfl
  all_goals cases hb.symm.trans hi

theorem hostAccess_busy_frame {a : Access} {s t : State} (hb : s.phase = .busy) (h : hostAccess a s = .next t) :
    t = { s with ovr := t.ovr, resp := t.resp } := by
  obtain ⟨-, ⟨i, -, hx⟩ | ⟨e, -, -, rfl⟩⟩ := hostAccess_cases h
  · exact exec_busy_frame hb hx
  · rfl

theorem hostAccess_read_ovr {a : Access} {s t : State} (ha : a.write = false) (h : hostAccess a s = .next t) :
    t.ovr = s.ovr := by
  obtain ⟨-, ⟨i, hd, hx⟩ | ⟨e, -, -, rfl⟩⟩ := hostAccess_cases h
  · obtain ⟨-, -, ⟨hw, -⟩ | ⟨-, rfl⟩⟩ := decodeAccess_ok hd
    · cases hw.symm.trans ha
    · rw [exec_rd] at hx
      injection hx with hx
      rw [← hx, respond_ovr]
  · rfl

/-- Settles O32, by the frame of a host access at a BUSY core. -/
theorem accessesWhileBusySeeOldResults : Obligations.AccessesWhileBusySeeOldResults := by
  intro s t a rest hb hi h
  obtain ⟨hp, -⟩ := step_cases h
  rw [step_access hp hi] at h
  exact ⟨hostAccess_busy_frame (s := { s with inputs := rest }) hb h,
    fun ha => hostAccess_read_ovr (s := { s with inputs := rest }) ha h⟩

/-! ### Polling STATUS -/

/-- Settles O33: bit 0 of the word is BUSY, which the invariant ties to the latch. -/
theorem polledIdleMeansComplete : Obligations.PolledIdleMeansComplete := by
  intro s h
  refine ⟨statusWord s, exec_rd .status s, ?_⟩
  obtain ⟨hbit, -⟩ := getLsbD_statusWord s
  have hbusy : busy s = true ↔ s.pend ≠ none := beq_iff_eq.trans h.busyLatched
  rw [hbit, ← Bool.not_eq_true, hbusy, not_not]

/-! ### A data write done twice -/

theorem writeReg_respond {r : Reg} (hne : r ≠ .cmd) (v : Word) (q : Response) (s : State) :
    writeReg r v (respond q s) = respond q (writeReg r v s) := by
  cases r with
  | cmd => exact absurd rfl hne
  | _ => rfl

theorem writeReg_writeReg {r : Reg} (hne : r ≠ .cmd) (v : Word) (s : State) :
    writeReg r v (writeReg r v s) = writeReg r v s := by
  cases r with
  | cmd => exact absurd rfl hne
  | status | rsvLow | rsvHigh | bout => rfl
  | key | bin | tag | hkey => simp only [writeReg, Vector.set_set]

theorem writeReg_phase {r : Reg} (hne : r ≠ .cmd) (v : Word) (s : State) : (writeReg r v s).phase = s.phase := by
  rw [writeReg_eq hne]

/-- Settles O15: a BUSY core drops both writes, an idle one stores the same value twice. -/
theorem registerWritesAreIdempotent : Obligations.RegisterWritesAreIdempotent := by
  intro s t r v hne h
  cases hp : s.phase with
  | busy =>
    rw [exec_wr_busy hp] at h
    injection h with h
    subst h
    exact exec_wr_busy (s := droppedState s) hp r v
  | idle =>
    rw [exec_wr_idle hp] at h
    injection h with h
    subst h
    rw [exec_wr_idle (by rw [respond_phase, writeReg_phase hne, hp]), writeReg_respond hne, writeReg_writeReg hne]
    rfl

end Sys2Proof.Machine
end

section
/-! PROOFS. The command word and the access that carries it: the encoder and the decoder are inverse to each other, and
the decoder is the mask table of R75. -/

namespace Sys2Proof

/-! ### The command word -/

/-- The four fields of a word that decodes to a command. -/
theorem fields_of_decodeCommand {w : Word} {op : Op} {len : Len} (h : decodeCommand w = .cmd op len) :
    w.extractLsb' 14 18 = 0 ∧ w.extractLsb' 8 6 = len ∧ w.extractLsb' 4 4 = 0 ∧ w.extractLsb' 0 4 = opCode op := by
  unfold decodeCommand at h
  split at h
  · cases h
  next hreserved =>
    obtain ⟨hhigh, hlow⟩ := not_or.1 hreserved
    split at h
    next hop =>
      obtain ⟨rfl, rfl⟩ := Command.cmd.inj h
      exact ⟨not_not.1 hhigh, rfl, not_not.1 hlow, opCode_of_opOfCode hop⟩
    · cases h

theorem eq_encodeCommand_of_decodeCommand {w : Word} {op : Op} {len : Len} (h : decodeCommand w = .cmd op len) :
    w = encodeCommand op len := by
  obtain ⟨hhigh, hlen, hlow, hop⟩ := fields_of_decodeCommand h
  rw [word_fields w, hhigh, hlen, hlow, hop, encodeCommand]

/-- Settles O3: a word is its four fields, and a decoded command fixes all of them. -/
theorem eachCommandHasOneWord : Obligations.EachCommandHasOneWord := by
  intro w op len
  constructor
  · exact eq_encodeCommand_of_decodeCommand
  · rintro rfl
    exact decodeCommand_encodeCommand op len

/-! ### The mask table -/

theorem decodeCommand_of_reserved {w : Word} (h : w.extractLsb' 14 18 ≠ 0 ∨ w.extractLsb' 4 4 ≠ 0) :
    decodeCommand w = .illegal w := if_pos h

/-- Every command word has a match of R75: the mask leaves its OP alone. -/
theorem isCommandWord_encodeCommand (op : Op) (len : Len) : isCommandWord (encodeCommand op len) = true := by
  cases op <;> revert len <;> decide

/-- Every word that matches none of the five commands is illegal (R75). -/
theorem decodeCommand_of_not_isCommandWord {w : Word} (h : isCommandWord w = false) : decodeCommand w = .illegal w := by
  cases hc : decodeCommand w with
  | illegal v => rw [(decodeCommand_illegal hc).1]
  | cmd op len =>
    rw [eq_encodeCommand_of_decodeCommand hc, isCommandWord_encodeCommand] at h
    cases h

/-- Settles O4: the reserved bits, the five matches (`decodeCommand_of_mask`), and the words that match none. -/
theorem decodingFollowsTheMaskTable : Obligations.DecodingFollowsTheMaskTable := by
  intro w
  refine ⟨decodeCommand_of_reserved, decodeCommand_of_mask (op := .expand), decodeCommand_of_mask (op := .encrypt),
    decodeCommand_of_mask (op := .decrypt), decodeCommand_of_mask (op := .ghashUpdate),
    decodeCommand_of_mask (op := .zeroize), fun h1 h2 h3 h4 h5 => decodeCommand_of_not_isCommandWord ?_⟩
  rw [← Bool.not_eq_true, isCommandWord_iff]
  rintro ⟨op, hop⟩
  cases op with
  | expand => exact h1 hop
  | encrypt => exact h2 hop
  | decrypt => exact h3 hop
  | ghashUpdate => exact h4 hop
  | zeroize => exact h5 hop

/-! ### The rows of command words -/

theorem decodeWord_encodeCommand (op : Op) (len : Len) :
    decodeWord (encodeCommand op len) = instrOfCommand (.cmd op len) := by
  rw [decodeWord, decodeCommand_encodeCommand]

theorem decodeWord_of_not_isCommandWord {w : Word} (h : isCommandWord w = false) : decodeWord w = .illegal w := by
  rw [decodeWord, decodeCommand_of_not_isCommandWord h, instrOfCommand]

/-- R77 writes ZEROIZE as its opcode with any LEN shifted to bit 8. -/
theorem encodeCommand_zeroize (len : Len) : encodeCommand .zeroize len = 0x0000000F ||| (len.setWidth 32 <<< 8) := by
  revert len; decide

/-- Settles O5: each word of R77 is the encoder's word of its command. -/
theorem writtenCommandWordsDecode : Obligations.WrittenCommandWordsDecode := by
  refine ⟨decodeWord_encodeCommand .expand 16, decodeWord_encodeCommand .expand 32,
    decodeWord_encodeCommand .encrypt 16, decodeWord_encodeCommand .decrypt 16,
    decodeWord_encodeCommand .ghashUpdate 16, decodeWord_encodeCommand .zeroize 0, fun len => ?_,
    decodeWord_encodeCommand .expand 24, decodeWord_encodeCommand .encrypt 15, decodeWord_encodeCommand .encrypt 17⟩
  rw [← encodeCommand_zeroize]
  exact decodeWord_encodeCommand .zeroize len

/-! ### The access -/

theorem decodeAccess_write_cmd (base : Nat) (v : Word) :
    decodeAccess base (writeAccess base .cmd v) = .ok (decodeWord v) := decodeAccess_write base .cmd v

theorem decodeAccess_write_of_ne_cmd (base : Nat) {r : Reg} (hne : r ≠ .cmd) (v : Word) :
    decodeAccess base (writeAccess base r v) = .ok (.wr r v) := by
  rw [decodeAccess_write]
  cases r with
  | cmd => exact absurd rfl hne
  | _ => rfl

/-- The write of a command's word to CMD decodes to the command's row. -/
theorem decodeAccess_write_command (base : Nat) (op : Op) (len : Len) :
    decodeAccess base (writeAccess base .cmd (encodeCommand op len)) = .ok (instrOfCommand (.cmd op len)) := by
  rw [decodeAccess_write_cmd, decodeWord_encodeCommand]

theorem decodeAccess_encode (base : Nat) {i : Instr} (h : WellFormed i) : decodeAccess base (encode base i) = .ok i := by
  cases i with
  | expand len => exact decodeAccess_write_command base .expand len
  | encrypt len => exact decodeAccess_write_command base .encrypt len
  | decrypt len => exact decodeAccess_write_command base .decrypt len
  | ghashUpdate len => exact decodeAccess_write_command base .ghashUpdate len
  | zeroize len => exact decodeAccess_write_command base .zeroize len
  | wr r v => exact decodeAccess_write_of_ne_cmd base (bne_iff_ne.1 h) v
  | rd r => exact decodeAccess_read base r
  | illegal w =>
    have hw : isCommandWord w = false := by simpa [WellFormed, Instr.wf] using h
    rw [encode, decodeAccess_write_cmd, decodeWord_of_not_isCommandWord hw]

/-- Settles O2: a case for each instruction, by the access that carries it (`decodeAccess_encode`). -/
theorem decodingUndoesEncoding : Obligations.DecodingUndoesEncoding :=
  fun base => ⟨fun _ => decodeAccess_encode base, decodeAccess_write_cmd base⟩

end Sys2Proof
end

section
/-! PROOFS. GF(2^8): multiplication is linear in each operand and commutes with doubling, every byte is built from 1 by
doubling and xor, and so the laws of R93 hold because they hold at 1. -/

namespace Sys2Proof.Machine

theorem xor_xor_xor_comm {w : Nat} (a b c d : BitVec w) : (a ^^^ b) ^^^ (c ^^^ d) = (a ^^^ c) ^^^ (b ^^^ d) := by
  ac_rfl

theorem xtime_xor (a b : Byte) : xtime (a ^^^ b) = xtime a ^^^ xtime b := by
  simp only [xtime, BitVec.shiftLeft_xor_distrib, BitVec.getLsbD_xor, xor_xor_xor_comm]
  cases a.getLsbD 7 <;> cases b.getLsbD 7 <;> rfl

/-! ### The loop of R93 is linear in each operand -/

theorem gmulStep_xor_left (b a a' r r' : Byte) (i : Nat) :
    gmulStep b (a ^^^ a', r ^^^ r') i =
      ((gmulStep b (a, r) i).1 ^^^ (gmulStep b (a', r') i).1,
        (gmulStep b (a, r) i).2 ^^^ (gmulStep b (a', r') i).2) := by
  cases hb : b.getLsbD i <;> simp [gmulStep, hb, xtime_xor, xor_xor_xor_comm]

theorem foldl_gmulStep_xor_left (b : Byte) (l : List Nat) (a a' r r' : Byte) :
    (l.foldl (gmulStep b) (a ^^^ a', r ^^^ r')).2 =
      (l.foldl (gmulStep b) (a, r)).2 ^^^ (l.foldl (gmulStep b) (a', r')).2 := by
  induction l generalizing a a' r r' with
  | nil => rfl
  | cons i l ih =>
    rw [List.foldl_cons, gmulStep_xor_left]
    exact ih ..

theorem gmul_xor_left (a a' b : Byte) : gmul (a ^^^ a') b = gmul a b ^^^ gmul a' b :=
  foldl_gmulStep_xor_left b (List.range 8) a a' 0 0

theorem gmulStep_xtime (b : Byte) (p : Byte × Byte) (i : Nat) :
    gmulStep b (p.map xtime xtime) i = (gmulStep b p i).map xtime xtime := by
  cases hb : b.getLsbD i <;> simp [gmulStep, hb, xtime_xor]

theorem gmul_xtime_left (a b : Byte) : gmul (xtime a) b = xtime (gmul a b) :=
  congrArg Prod.snd (List.foldl_hom (Prod.map xtime xtime) (gmulStep_xtime b) :
    (List.range 8).foldl (gmulStep b) ((a, 0).map xtime xtime) = _)

theorem gmulStep_xor_right (b b' a r r' : Byte) (i : Nat) :
    gmulStep (b ^^^ b') (a, r ^^^ r') i =
      (xtime a, (gmulStep b (a, r) i).2 ^^^ (gmulStep b' (a, r') i).2) := by
  have h : (gmulStep (b ^^^ b') (a, r ^^^ r') i).2 = (gmulStep b (a, r) i).2 ^^^ (gmulStep b' (a, r') i).2 := by
    simp only [gmulStep, BitVec.getLsbD_xor]
    cases b.getLsbD i <;> cases b'.getLsbD i
    · rfl
    · exact BitVec.xor_assoc ..
    · show (r ^^^ r') ^^^ a = (r ^^^ a) ^^^ r'
      ac_rfl
    · show r ^^^ r' = (r ^^^ a) ^^^ (r' ^^^ a)
      rw [xor_xor_xor_comm, BitVec.xor_self, BitVec.xor_zero]
  exact Prod.ext rfl h

theorem foldl_gmulStep_xor_right (b b' : Byte) (l : List Nat) (a r r' : Byte) :
    (l.foldl (gmulStep (b ^^^ b')) (a, r ^^^ r')).2 =
      (l.foldl (gmulStep b) (a, r)).2 ^^^ (l.foldl (gmulStep b') (a, r')).2 := by
  induction l generalizing a r r' with
  | nil => rfl
  | cons i l ih =>
    rw [List.foldl_cons, gmulStep_xor_right]
    exact ih ..

theorem gmul_xor_right (a b b' : Byte) : gmul a (b ^^^ b') = gmul a b ^^^ gmul a b' :=
  foldl_gmulStep_xor_right b b' (List.range 8) a 0 0

theorem gmul_zero_left (b : Byte) : gmul 0 b = 0 := by
  have h := gmul_xor_left 0 0 b
  rwa [BitVec.xor_self, BitVec.xor_self] at h

theorem gmul_zero_right (a : Byte) : gmul a 0 = 0 := by
  have h := gmul_xor_right a 0 0
  rwa [BitVec.xor_self, BitVec.xor_self] at h

/-! ### Every byte is built from 1 by doubling and xor -/

theorem gmul_one_left (b : Byte) : gmul 1 b = b := by
  revert b; decide

/-- The loop that computes `gmul 1 a = a` builds `a` so. -/
theorem byte_induction {P : Byte → Prop} (zero : P 0) (one : P 1) (double : ∀ a, P a → P (xtime a))
    (add : ∀ a b, P a → P b → P (a ^^^ b)) (a : Byte) : P a := by
  have h : P ((List.range 8).foldl (gmulStep a) (1, 0)).1 ∧ P ((List.range 8).foldl (gmulStep a) (1, 0)).2 := by
    refine List.foldlRecOn (motive := fun p : Byte × Byte => P p.1 ∧ P p.2) _ _ ⟨one, zero⟩
      fun p ⟨h1, h2⟩ i _ => ⟨double _ h1, ?_⟩
    show P (if a.getLsbD i then p.2 ^^^ p.1 else p.2)
    split
    · exact add _ _ h2 h1
    · exact h2
  exact gmul_one_left a ▸ h.2

theorem gmul_one_right (a : Byte) : gmul a 1 = a := by
  induction a using byte_induction with
  | zero => exact gmul_zero_left 1
  | one => exact gmul_one_left 1
  | double a ha => rw [gmul_xtime_left, ha]
  | add a b ha hb => rw [gmul_xor_left, ha, hb]

theorem gmul_xtime_right (a b : Byte) : gmul a (xtime b) = xtime (gmul a b) := by
  induction a using byte_induction with
  | zero => rw [gmul_zero_left, gmul_zero_left]; rfl
  | one => rw [gmul_one_left, gmul_one_left]
  | double a ha => rw [gmul_xtime_left, gmul_xtime_left, ha]
  | add a a' ha ha' => rw [gmul_xor_left, gmul_xor_left, xtime_xor, ha, ha']

/-! ### The laws -/

theorem gmul_comm (a b : Byte) : gmul a b = gmul b a := by
  induction a using byte_induction with
  | zero => rw [gmul_zero_left, gmul_zero_right]
  | one => rw [gmul_one_left, gmul_one_right]
  | double a ha => rw [gmul_xtime_left, gmul_xtime_right, ha]
  | add a a' ha ha' => rw [gmul_xor_left, gmul_xor_right, ha, ha']

theorem gmul_assoc (a b c : Byte) : gmul (gmul a b) c = gmul a (gmul b c) := by
  induction a using byte_induction with
  | zero => simp only [gmul_zero_left]
  | one => simp only [gmul_one_left]
  | double a ha => simp only [gmul_xtime_left, ha]
  | add a a' ha ha' => simp only [gmul_xor_left, ha, ha']

/-- Settles O51: each law is one of the lemmas above, by induction on the way a byte is built. -/
theorem byteMultiplicationIsAFieldProduct : Obligations.ByteMultiplicationIsAFieldProduct :=
  fun a b c => ⟨gmul_comm a b, gmul_assoc a b c, gmul_xor_right a b c, gmul_one_right a, gmul_zero_right a⟩

end Sys2Proof.Machine
end

section
/-! PROOFS. The inverse of a byte and the two substitution tables. -/

namespace Sys2Proof.Machine

/-! ### The inverse of R94 -/

/-- Each byte's inverse is evaluated once, for the table of R96 and for the product of R94. -/
theorem affine_ginv_and_gmul_ginv :
    ∀ a : Byte, affine (ginv a) = sbox a ∧ (a ≠ 0 → gmul a (ginv a) = 0x01) := by
  decide +kernel

theorem gmul_ginv {a : Byte} (h : a ≠ 0) : gmul a (ginv a) = 0x01 := (affine_ginv_and_gmul_ginv a).2 h

theorem eq_ginv_of_gmul {a b : Byte} (ha : a ≠ 0) (h : gmul a b = 0x01) : b = ginv a :=
  calc
    b = gmul (gmul a (ginv a)) b := by rw [gmul_ginv ha, gmul_one_left]
    _ = gmul (ginv a) (gmul a b) := by rw [gmul_comm a, gmul_assoc]
    _ = ginv a := by rw [h, gmul_one_right]

/-- Settles O50: `ginv a` is an inverse, and associativity leaves room for one only. -/
theorem fieldInverseIsUnique : Obligations.FieldInverseIsUnique := by
  refine ⟨by decide, by decide, fun a ha b => ⟨eq_ginv_of_gmul ha, ?_⟩⟩
  rintro rfl
  exact gmul_ginv ha

/-! ### The tables of R96 and R97 -/

theorem sbox_eq_affine_ginv (a : Byte) : sbox a = affine (ginv a) := (affine_ginv_and_gmul_ginv a).1.symm

@[simp] theorem sboxInv_sbox (a : Byte) : sboxInv (sbox a) = a := by
  revert a; decide +kernel

/-- A left inverse on the 256 bytes is a right inverse too. -/
@[simp] theorem sbox_sboxInv (a : Byte) : sbox (sboxInv a) = a := by
  obtain ⟨b, rfl⟩ := Finite.surjective_of_injective (Function.LeftInverse.injective sboxInv_sbox) a
  rw [sboxInv_sbox]

/-- Settles O49. -/
theorem substitutionTablesAreInverse : Obligations.SubstitutionTablesAreInverse :=
  fun a => ⟨sbox_eq_affine_ginv a, sboxInv_sbox a, sbox_sboxInv a⟩

end Sys2Proof.Machine
end

section
/-! PROOFS. The round steps. A step on bytes is seen on each byte and the row rotations on the byte numbers; a column
mixing is the product with a fixed column, so linearity and the inverse are laws of that product. -/

namespace Sys2Proof.Machine

/-! ### The product of two columns -/

/-- The product of two columns as polynomials `b0 + b1 y + b2 y^2 + b3 y^3` over GF(2^8) modulo `y^4 + 1`. -/
def columnMul (c w : Word) : Word :=
  let c0 := wordByte c 0
  let c1 := wordByte c 1
  let c2 := wordByte c 2
  let c3 := wordByte c 3
  let w0 := wordByte w 0
  let w1 := wordByte w 1
  let w2 := wordByte w 2
  let w3 := wordByte w 3
  wordOfBytes
    (gmul c0 w0 ^^^ gmul c3 w1 ^^^ gmul c2 w2 ^^^ gmul c1 w3)
    (gmul c1 w0 ^^^ gmul c0 w1 ^^^ gmul c3 w2 ^^^ gmul c2 w3)
    (gmul c2 w0 ^^^ gmul c1 w1 ^^^ gmul c0 w2 ^^^ gmul c3 w3)
    (gmul c3 w0 ^^^ gmul c2 w1 ^^^ gmul c1 w2 ^^^ gmul c0 w3)

theorem columnMul_assoc (c d w : Word) : columnMul (columnMul c d) w = columnMul c (columnMul d w) := by
  simp only [columnMul, wordByte_wordOfBytes, gmul_xor_left, gmul_xor_right, gmul_assoc]
  congr 1 <;> ac_rfl

theorem columnMul_xor (c v w : Word) : columnMul c (v ^^^ w) = columnMul c v ^^^ columnMul c w := by
  simp only [columnMul, wordByte_xor, gmul_xor_right, ← wordOfBytes_xor]
  congr 1 <;> ac_rfl

theorem columnMul_one (w : Word) : columnMul (wordOfBytes 1 0 0 0) w = w := by
  simp only [columnMul, wordByte_wordOfBytes, gmul_one_left, gmul_zero_left]
  simp [wordOfBytes_wordByte]

theorem mixColumn_eq_columnMul (w : Word) : mixColumn w = columnMul (wordOfBytes 2 1 1 3) w := by
  simp only [mixColumn, columnMul, wordByte_wordOfBytes, gmul_one_left]

theorem invMixColumn_eq_columnMul (w : Word) : invMixColumn w = columnMul (wordOfBytes 14 9 13 11) w := by
  simp only [invMixColumn, columnMul, wordByte_wordOfBytes]

theorem invMixColumn_mixColumn (w : Word) : invMixColumn (mixColumn w) = w := by
  have h : columnMul (wordOfBytes 14 9 13 11) (wordOfBytes 2 1 1 3) = wordOfBytes 1 0 0 0 := by decide
  rw [mixColumn_eq_columnMul, invMixColumn_eq_columnMul, ← columnMul_assoc, h, columnMul_one]

theorem mixColumn_invMixColumn (w : Word) : mixColumn (invMixColumn w) = w := by
  have h : columnMul (wordOfBytes 2 1 1 3) (wordOfBytes 14 9 13 11) = wordOfBytes 1 0 0 0 := by decide
  rw [mixColumn_eq_columnMul, invMixColumn_eq_columnMul, ← columnMul_assoc, h, columnMul_one]

/-! ### Column mixing -/

@[simp] theorem invMixColumns_mixColumns (b : Block) : invMixColumns (mixColumns b) = b :=
  block_ext_words fun j hj => by
    rw [blockWord_invMixColumns _ hj, blockWord_mixColumns _ hj, invMixColumn_mixColumn]

@[simp] theorem mixColumns_invMixColumns (b : Block) : mixColumns (invMixColumns b) = b :=
  block_ext_words fun j hj => by
    rw [blockWord_mixColumns _ hj, blockWord_invMixColumns _ hj, mixColumn_invMixColumn]

theorem invMixColumns_xor (a b : Block) : invMixColumns (a ^^^ b) = invMixColumns a ^^^ invMixColumns b :=
  block_ext_words fun j hj => by
    simp only [blockWord_xor, blockWord_invMixColumns _ hj, invMixColumn_eq_columnMul, columnMul_xor]

/-- Settles O53: in each column InvMixColumns is the product with a fixed column, which is linear. -/
theorem invMixColumnsIsLinear : Obligations.InvMixColumnsIsLinear := invMixColumns_xor

/-! ### Row rotation -/

@[simp] theorem invShiftRows_shiftRows (b : Block) : invShiftRows (shiftRows b) = b := by
  refine block_ext fun k hk => ?_
  rw [blockByte_invShiftRows _ hk, blockByte_shiftRows _ (by omega)]
  congr 1
  omega

@[simp] theorem shiftRows_invShiftRows (b : Block) : shiftRows (invShiftRows b) = b := by
  refine block_ext fun k hk => ?_
  rw [blockByte_shiftRows _ hk, blockByte_invShiftRows _ (by omega)]
  congr 1
  omega

/-! ### Byte substitution -/

@[simp] theorem invSubBytes_subBytes (b : Block) : invSubBytes (subBytes b) = b :=
  block_ext fun k hk => by rw [blockByte_invSubBytes _ hk, blockByte_subBytes _ hk, sboxInv_sbox]

@[simp] theorem subBytes_invSubBytes (b : Block) : subBytes (invSubBytes b) = b :=
  block_ext fun k hk => by rw [blockByte_subBytes _ hk, blockByte_invSubBytes _ hk, sbox_sboxInv]

theorem subBytes_shiftRows (b : Block) : subBytes (shiftRows b) = shiftRows (subBytes b) :=
  block_ext fun k hk => by
    rw [blockByte_subBytes _ hk, blockByte_shiftRows _ hk, blockByte_shiftRows _ hk, blockByte_subBytes _ (by omega)]

theorem invSubBytes_invShiftRows (b : Block) : invSubBytes (invShiftRows b) = invShiftRows (invSubBytes b) :=
  block_ext fun k hk => by
    rw [blockByte_invSubBytes _ hk, blockByte_invShiftRows _ hk, blockByte_invShiftRows _ hk,
      blockByte_invSubBytes _ (by omega)]

/-- Settles O54: the substitution acts on each byte alone, the rotation on the byte numbers. -/
theorem substitutionAndRotationCommute : Obligations.SubstitutionAndRotationCommute :=
  fun b => ⟨subBytes_shiftRows b, invSubBytes_invShiftRows b⟩

/-! ### Every step undone -/

@[simp] theorem addRoundKey_addRoundKey (b k : Block) : addRoundKey (addRoundKey b k) k = b := by
  rw [addRoundKey, addRoundKey, BitVec.xor_assoc, BitVec.xor_self, BitVec.xor_zero]

/-- Settles O52, step by step. -/
theorem roundStepsAreInvertible : Obligations.RoundStepsAreInvertible :=
  fun b k => ⟨invShiftRows_shiftRows b, shiftRows_invShiftRows b, invMixColumns_mixColumns b,
    mixColumns_invMixColumns b, invSubBytes_subBytes b, subBytes_invSubBytes b, addRoundKey_addRoundKey b k⟩

end Sys2Proof.Machine
end

section
/-! PROOFS. The key schedule: what each slot of the stored schedule holds, what the schedule depends on, and the words
of the forward keys. -/

namespace Sys2Proof.Machine

/-! ### EXPAND, issued and completed -/

/-- The completion of a latched command is its data effect on the state with the completion's flags (R203). -/
theorem coreTurn_acceptedState (p : Pending) (s : State) :
    coreTurn (acceptedState p s) = effect p (completedState s) := by
  rw [coreTurn_busy rfl rfl]
  cases p <;> rfl

theorem exec_expand {s : State} {len : Len} (hi : s.phase = .idle) (hl : len = 16 ∨ len = 32) :
    exec (.expand len) s = .next (acceptedState (.expand len s.key) s) :=
  exec_acceptable (op := .expand) hi hl

/-! ### The slots of the stored schedule -/

theorem expandKey_16 (key : Vector Word 8) : expandKey 16 key = schedule 10 (expand128 (keyLow key)) := rfl

theorem expandKey_32 (key : Vector Word 8) :
    expandKey 32 key = schedule 14 (expand256 (keyLow key) (keyHigh key)) := rfl

theorem rkSlot_schedule_forward {nr j : Nat} (k : Nat → Block) (hnr : nr ≤ 14) (hj : j ≤ nr) :
    rkSlot (schedule nr k) j = k j := by
  rw [rkSlot_schedule nr k (by omega), scheduleSlot, if_pos hj]

/-- After the forward keys come InvMixColumns of the interior ones, in descending order (R144). -/
theorem rkSlot_schedule_inverse {nr m : Nat} (k : Nat → Block) (hnr : nr ≤ 14) (h1 : 1 ≤ m) (hm : m < nr) :
    rkSlot (schedule nr k) (nr + m) = invMixColumns (rkSlot (schedule nr k) (nr - m)) := by
  rw [rkSlot_schedule_forward k hnr (Nat.sub_le nr m), rkSlot_schedule nr k (by omega), scheduleSlot,
    if_neg (by omega), if_pos (by omega), show 2 * nr - (nr + m) = nr - m by omega]

/-! ### The forward keys -/

theorem expand128_step (key : Block) {i : Nat} (h : 1 ≤ i) :
    expand128 key i = expandStep (expand128 key (i - 1)) (expand128 key (i - 1)) (rcon i) 3 := by
  obtain ⟨i, rfl⟩ := Nat.exists_eq_add_of_le' h
  rfl

theorem expand256_step_even (key0 key1 : Block) {i : Nat} (h : 2 ≤ i) (hi : i % 2 = 0) :
    expand256 key0 key1 i =
      expandStep (expand256 key0 key1 (i - 2)) (expand256 key0 key1 (i - 1)) (rcon (i / 2)) 3 := by
  obtain ⟨i, rfl⟩ := Nat.exists_eq_add_of_le' h
  exact if_pos (by omega)

theorem expand256_step_odd (key0 key1 : Block) {i : Nat} (h : 2 ≤ i) (hi : i % 2 = 1) :
    expand256 key0 key1 i = expandStep (expand256 key0 key1 (i - 2)) (expand256 key0 key1 (i - 1)) 0x00 2 := by
  obtain ⟨i, rfl⟩ := Nat.exists_eq_add_of_le' h
  exact if_neg (by omega)

/-- Settles O23: the completion writes `expandKey`, whose slots are the forward keys and then their inverse columns. -/
theorem expandFillsTheRoundKeyRam : Obligations.ExpandFillsTheRoundKeyRam := by
  intro s len hi hl
  refine ⟨exec_expand hi hl, expandKey len s.key, ?_, ?_, ?_⟩
  · have hksz : decide (len ≠ 16) = decide (len = 32) := by
      obtain rfl | rfl := hl <;> rfl
    rw [coreTurn_acceptedState, effect, completeExpand, hksz]
  · rintro rfl
    rw [expandKey_16]
    have fwd {i : Nat} (h : i ≤ 10) := rkSlot_schedule_forward (expand128 (keyLow s.key)) (by decide) h
    refine ⟨fwd (by decide), fun i h1 h2 => ?_, fun m h1 h2 => ?_, fun j => rkSlot_expandKey_16 s.key⟩
    · rw [fwd h2, fwd (by omega), expand128_step _ h1]
    · exact rkSlot_schedule_inverse _ (by decide) h1 (by omega)
  · rintro rfl
    rw [expandKey_32]
    have fwd {i : Nat} (h : i ≤ 14) :=
      rkSlot_schedule_forward (expand256 (keyLow s.key) (keyHigh s.key)) (by decide) h
    refine ⟨fwd (by decide), fwd (by decide), fun i h1 h2 hp => ?_, fun i h1 h2 hp => ?_, fun m h1 h2 => ?_⟩
    · rw [fwd h2, fwd (by omega), fwd (by omega), expand256_step_even _ _ h1 hp]
    · rw [fwd h2, fwd (by omega), fwd (by omega), expand256_step_odd _ _ h1 hp]
    · exact rkSlot_schedule_inverse _ (by decide) h1 (by omega)

/-! ### What the schedule depends on -/

theorem keyLow_congr {k₁ k₂ : Vector Word 8} (h : ∀ j : Fin 8, j.val < 4 → k₁[j] = k₂[j]) :
    keyLow k₁ = keyLow k₂ :=
  block_ext_words fun j hj => by
    rw [blockWord_keyLow _ hj, blockWord_keyLow _ hj]
    exact h ⟨j, by omega⟩ hj

/-- The schedule is a function of the key words EXPAND reads (R145, R147). -/
theorem expandKey_congr {len : Len} {k₁ k₂ : Vector Word 8} (hl : len = 16 ∨ len = 32)
    (h : ∀ j : Fin 8, (j.val < 4 ∨ len = 32) → k₁[j] = k₂[j]) : expandKey len k₁ = expandKey len k₂ := by
  obtain rfl | rfl := hl
  · rw [expandKey_16, expandKey_16, keyLow_congr fun j hj => h j (.inl hj)]
  · have hk : k₁ = k₂ := Vector.ext fun j hj => h ⟨j, hj⟩ (.inr rfl)
    rw [hk]

/-- Settles O28: the completion writes `expandKey` of the latched key, whatever else the state holds. -/
theorem expandDependsOnTheKeyAlone : Obligations.ExpandDependsOnTheKeyAlone := by
  intro s₁ s₂ len h₁ h₂ hl hkey
  refine ⟨_, _, exec_expand h₁ hl, exec_expand h₂ hl, ?_⟩
  rw [coreTurn_acceptedState, coreTurn_acceptedState]
  exact expandKey_congr hl hkey

/-! ### The words of the forward keys -/

/-- Word `n` of the keys `k`, four words to a key (R139). -/
def scheduleWord (k : Nat → Block) (n : Nat) : Word := blockWord (k (n / 4)) (n % 4)

/-- Word `c` of the diffusion is the xor of words 0 to `c`. -/
theorem blockWord_diffuse (b : Block) {c : Nat} (hc : c < 4) :
    blockWord (diffuse b) c = blockWord b c ^^^ (if c = 0 then 0 else blockWord (diffuse b) (c - 1)) := by
  rw [diffuse]
  interval_cases c <;> simp [blockWord_blockOfWords, BitVec.xor_comm]

/-- In one expansion step each word is the base's word xored with the one before it, word 0 with the assist's lane
(R134 to R136). -/
theorem blockWord_expandStep (base prev : Block) (rc : Byte) (j : Nat) {c : Nat} (hc : c < 4) :
    blockWord (expandStep base prev rc j) c = blockWord base c ^^^
      (if c = 0 then sel (assist prev rc) j else blockWord (expandStep base prev rc j) (c - 1)) := by
  simp only [expandStep, blockWord_xor, blockWord_bcast _ hc, blockWord_bcast _ (show c - 1 < 4 by omega)]
  rw [blockWord_diffuse base hc, BitVec.xor_assoc]
  split_ifs
  · simp only [BitVec.ofNat_eq_ofNat, BitVec.zero_xor]
  · rfl

/-- The word recurrence of R139, for keys made by the step from the keys `m` places and one place before; the last
word of the key before gives the assist's lane. -/
theorem scheduleWord_of_expandStep {k : Nat → Block} {m n : Nat} {rc : Byte} {j : Nat} (hn : 4 * m ≤ n)
    (h : k (n / 4) = expandStep (k (n / 4 - m)) (k (n / 4 - 1)) rc j) :
    scheduleWord k n = scheduleWord k (n - 4 * m) ^^^
      (if n % 4 = 0 then sel (assist (k (n / 4 - 1)) rc) j else scheduleWord k (n - 1)) := by
  have hbase : scheduleWord k (n - 4 * m) = blockWord (k (n / 4 - m)) (n % 4) := by
    rw [scheduleWord, show (n - 4 * m) / 4 = n / 4 - m by omega, show (n - 4 * m) % 4 = n % 4 by omega]
  rw [hbase, scheduleWord, h, blockWord_expandStep _ _ _ _ (Nat.mod_lt n (by decide)), ← h]
  split_ifs with hc
  · rfl
  · rw [scheduleWord, show (n - 1) / 4 = n / 4 by omega, show (n - 1) % 4 = n % 4 - 1 by omega]

theorem blockWord_last_of_aligned (k : Nat → Block) {n : Nat} (h4 : 4 ≤ n) (hn : n % 4 = 0) :
    blockWord (k (n / 4 - 1)) 3 = scheduleWord k (n - 1) := by
  rw [scheduleWord, show (n - 1) / 4 = n / 4 - 1 by omega, show (n - 1) % 4 = 3 by omega]

theorem scheduleWord_expand128 (key : Block) {n : Nat} (hn : 4 ≤ n) :
    scheduleWord (expand128 key) n = scheduleWord (expand128 key) (n - 4) ^^^
      (if n % 4 = 0 then
        rotWord (subWord (scheduleWord (expand128 key) (n - 1))) ^^^ wordOfBytes (rcon (n / 4)) 0 0 0
       else scheduleWord (expand128 key) (n - 1)) := by
  rw [scheduleWord_of_expandStep (m := 1) hn (expand128_step key (by omega)), (sel_assist _ _).1]
  split_ifs with hc
  · rw [blockWord_last_of_aligned _ hn hc]
  · rfl

theorem scheduleWord_expand256 (key0 key1 : Block) {n : Nat} (hn : 8 ≤ n) :
    scheduleWord (expand256 key0 key1) n = scheduleWord (expand256 key0 key1) (n - 8) ^^^
      (if n % 8 = 0 then
        rotWord (subWord (scheduleWord (expand256 key0 key1) (n - 1))) ^^^ wordOfBytes (rcon (n / 8)) 0 0 0
       else if n % 8 = 4 then subWord (scheduleWord (expand256 key0 key1) (n - 1))
       else scheduleWord (expand256 key0 key1) (n - 1)) := by
  obtain hp | hp := Nat.mod_two_eq_zero_or_one (n / 4)
  · rw [scheduleWord_of_expandStep (m := 2) hn (expand256_step_even key0 key1 (by omega) hp), (sel_assist _ _).1]
    by_cases hc : n % 4 = 0
    · rw [if_pos hc, if_pos (by omega), blockWord_last_of_aligned _ (by omega) hc, Nat.div_div_eq_div_mul]
    · rw [if_neg hc, if_neg (by omega), if_neg (by omega)]
  · rw [scheduleWord_of_expandStep (m := 2) hn (expand256_step_odd key0 key1 (by omega) hp), (sel_assist _ _).2,
      if_neg (show n % 8 ≠ 0 by omega)]
    by_cases hc : n % 4 = 0
    · rw [if_pos hc, if_pos (by omega), blockWord_last_of_aligned _ (by omega) hc]
    · rw [if_neg hc, if_neg (by omega)]

/-- Settles O48: both expansions are runs of the expansion step, each of whose words obeys the recurrence. -/
theorem forwardKeysFollowTheWordRecurrence : Obligations.ForwardKeysFollowTheWordRecurrence :=
  ⟨fun key _ h _ => scheduleWord_expand128 key h, fun key0 key1 _ h _ => scheduleWord_expand256 key0 key1 h⟩

end Sys2Proof.Machine
end

section
/-! PROOFS. The round pipeline: ENCRYPT and DECRYPT issued and completed, and the two transforms undoing each other over
a stored schedule. -/

namespace Sys2Proof.Machine

/-! ### ENCRYPT and DECRYPT, issued and completed -/

theorem exec_encrypt {s : State} (hi : s.phase = .idle) (hkv : s.kv = true) :
    exec (.encrypt 16) s = .next (acceptedState (.encrypt 16 s.bin s.rk s.ksz) s) :=
  exec_acceptable (op := .encrypt) hi ⟨rfl, hkv⟩

theorem exec_decrypt {s : State} (hi : s.phase = .idle) (hkv : s.kv = true) :
    exec (.decrypt 16) s = .next (acceptedState (.decrypt 16 s.bin s.rk s.ksz) s) :=
  exec_acceptable (op := .decrypt) hi ⟨rfl, hkv⟩

theorem cipherRounds_step (rk : Vector Block 28) (b : Block) {r : Nat} (h : 1 ≤ r) :
    cipherRounds rk b r = roundEnc (cipherRounds rk b (r - 1)) (rkSlot rk r) := by
  obtain ⟨r, rfl⟩ := Nat.exists_eq_add_of_le' h
  rfl

/-- Settles O24: the sequence is `cipherRounds` over the live registers, which the latch holds. -/
theorem encryptWritesTheCipherOfBin : Obligations.EncryptWritesTheCipherOfBin := fun s hi hkv =>
  ⟨exec_encrypt hi hkv, roundCount s.ksz, cipherRounds s.rk (blockOfGroup s.bin), rfl, rfl,
    fun _ h _ => cipherRounds_step s.rk _ h, coreTurn_acceptedState _ s⟩

/-- The block of `InvCipher` after it has used slot `j`, counted from `nr` as R161 counts. -/
def invCipherAfterSlot (nr : Nat) (rk : Vector Block 28) (b : Block) (j : Nat) : Block :=
  invCipherRounds nr rk b (j - nr)

theorem invCipherAfterSlot_first (nr : Nat) (rk : Vector Block 28) (b : Block) :
    invCipherAfterSlot nr rk b nr = b ^^^ rkSlot rk nr := by
  rw [invCipherAfterSlot, Nat.sub_self, invCipherRounds]

theorem invCipherAfterSlot_step (nr : Nat) (rk : Vector Block 28) (b : Block) {j : Nat} (h : nr + 1 ≤ j) :
    invCipherAfterSlot nr rk b j = roundDec (invCipherAfterSlot nr rk b (j - 1)) (rkSlot rk j) := by
  have hround : j - nr = j - 1 - nr + 1 := by omega
  rw [invCipherAfterSlot, invCipherAfterSlot, hround, invCipherRounds, ← hround, Nat.add_sub_cancel' (by omega)]

theorem invCipher_eq_afterSlot (nr : Nat) (rk : Vector Block 28) (b : Block) :
    invCipher nr rk b = roundDecLast (invCipherAfterSlot nr rk b (2 * nr - 1)) (rkSlot rk 0) := by
  rw [invCipher, invCipherAfterSlot, show 2 * nr - 1 - nr = nr - 1 by omega]

/-- Settles O25: the sequence is `invCipherAfterSlot` over the live registers, which the latch holds. -/
theorem decryptWritesTheInverseCipherOfBin : Obligations.DecryptWritesTheInverseCipherOfBin := by
  intro s hi hkv
  refine ⟨exec_decrypt hi hkv, roundCount s.ksz, invCipherAfterSlot (roundCount s.ksz) s.rk (blockOfGroup s.bin), rfl,
    invCipherAfterSlot_first _ _ _, fun _ h _ => invCipherAfterSlot_step _ s.rk _ h, ?_⟩
  rw [coreTurn_acceptedState, effect, completeDecrypt, invCipher_eq_afterSlot]

/-! ### Decryption over a stored schedule undoes encryption -/

/-- The slots after `nr` hold InvMixColumns of the interior forward keys, in descending order (R144). -/
def HoldsInverseKeys (nr : Nat) (rk : Vector Block 28) : Prop :=
  ∀ m, 1 ≤ m → m < nr → rkSlot rk (nr + m) = invMixColumns (rkSlot rk (nr - m))

theorem holdsInverseKeys_schedule {nr : Nat} (k : Nat → Block) (hnr : nr ≤ 14) :
    HoldsInverseKeys nr (schedule nr k) := fun _ => rkSlot_schedule_inverse k hnr

/-- The steps before the column mixing of an inverse round undo those of a standard round. -/
theorem invSubBytes_invShiftRows_subBytes_shiftRows (b : Block) :
    invSubBytes (invShiftRows (subBytes (shiftRows b))) = b := by
  rw [subBytes_shiftRows, invShiftRows_shiftRows, invSubBytes_subBytes]

/-- An inverse round with the round's key through InvMixColumns takes the substituted, rotated block after a round to
the substituted, rotated block before it (R110). -/
theorem roundDec_roundEnc (s k : Block) :
    roundDec (subBytes (shiftRows (roundEnc s k))) (invMixColumns k) = subBytes (shiftRows s) :=
  calc roundDec (subBytes (shiftRows (roundEnc s k))) (invMixColumns k)
    _ = invMixColumns (roundEnc s k) ^^^ invMixColumns k := by
      rw [roundDec, invSubBytes_invShiftRows_subBytes_shiftRows, addRoundKey]
    _ = invMixColumns (addRoundKey (roundEnc s k) k) := (invMixColumns_xor _ _).symm
    _ = subBytes (shiftRows s) := by rw [roundEnc, addRoundKey_addRoundKey, invMixColumns_mixColumns]

/-- `InvCipher` of a cipher text goes back through the blocks of `Cipher`, round by round. -/
theorem invCipherRounds_cipher {nr : Nat} {rk : Vector Block 28} (h : HoldsInverseKeys nr rk) (b : Block) {i : Nat}
    (hi : i < nr) :
    invCipherRounds nr rk (cipher nr rk b) i = subBytes (shiftRows (cipherRounds rk b (nr - 1 - i))) := by
  induction i with
  | zero => exact addRoundKey_addRoundKey _ _
  | succ i ih =>
    have hround : nr - 1 - i = nr - 1 - (i + 1) + 1 := by omega
    have hslot : nr - (i + 1) = nr - 1 - (i + 1) + 1 := by omega
    rw [invCipherRounds, ih (by omega), h (i + 1) (by omega) hi, hround, hslot, cipherRounds, roundDec_roundEnc]

theorem invCipher_cipher {nr : Nat} {rk : Vector Block 28} (h : HoldsInverseKeys nr rk) (hnr : 0 < nr) (b : Block) :
    invCipher nr rk (cipher nr rk b) = b := by
  rw [invCipher, invCipherRounds_cipher h b (by omega), Nat.sub_self, roundDecLast,
    invSubBytes_invShiftRows_subBytes_shiftRows]
  exact addRoundKey_addRoundKey b _

/-- The blocks are finitely many, so `Cipher`, which `InvCipher` undoes, is a permutation of them and undoes it in turn
(R163). -/
theorem cipher_invCipher {nr : Nat} {rk : Vector Block 28} (h : HoldsInverseKeys nr rk) (hnr : 0 < nr) (b : Block) :
    cipher nr rk (invCipher nr rk b) = b := by
  have hleft : Function.LeftInverse (invCipher nr rk) (cipher nr rk) := invCipher_cipher h hnr
  have : Finite Block := .of_equiv _ BitVec.equivFin.symm.toEquiv
  exact hleft.rightInverse_of_surjective (Finite.surjective_of_injective hleft.injective) b

/-- Settles O47: the schedule of either size holds the transformed keys, over which the transforms are inverse. -/
theorem decryptionInvertsEncryption : Obligations.DecryptionInvertsEncryption := by
  intro key b
  have h16 : HoldsInverseKeys 10 (expandKey 16 key) := holdsInverseKeys_schedule _ (by decide)
  have h32 : HoldsInverseKeys 14 (expandKey 32 key) := holdsInverseKeys_schedule _ (by decide)
  exact ⟨⟨invCipher_cipher h16 (by decide) b, cipher_invCipher h16 (by decide) b⟩,
    invCipher_cipher h32 (by decide) b, cipher_invCipher h32 (by decide) b⟩

end Sys2Proof.Machine
end

section
/-! PROOFS. The binary field: a block is the residue class of a polynomial over GF(2), the loop of R183 computes the
product of two classes, and so the laws of R184 are laws of the polynomial ring. -/

namespace Sys2Proof.Machine

open Polynomial

/-! ### The polynomial of a block -/

/-- The polynomial of the `n` low bits of `x`, the highest of them the coefficient of 1: what is left of `x` for the
last `n` passes of the loop. -/
noncomputable def lowBitsPoly (x : Block) (n : Nat) : (ZMod 2)[X] :=
  ∑ i ∈ Finset.range n, if x.getLsbD (n - 1 - i) then X ^ i else 0

/-- The polynomial of a block: the coefficient of x^i is bit 127 - i (R180). -/
noncomputable def blockPoly (x : Block) : (ZMod 2)[X] := lowBitsPoly x 128

theorem blockPoly_eq_sum (x : Block) :
    blockPoly x = ∑ i ∈ Finset.range 128, if x.getLsbD (127 - i) then X ^ i else 0 := rfl

/-- `P(x)`, R182. -/
noncomputable def fieldModulus : (ZMod 2)[X] := X ^ 128 + X ^ 7 + X ^ 2 + X + 1

theorem lowBitsPoly_succ (x : Block) (n : Nat) :
    lowBitsPoly x (n + 1) = (if x.getLsbD n then 1 else 0) + X * lowBitsPoly x n := by
  rw [lowBitsPoly, Finset.sum_range_succ', lowBitsPoly, Finset.mul_sum, add_comm]
  congr 1
  refine Finset.sum_congr rfl fun i _ => ?_
  rw [show n + 1 - 1 - (i + 1) = n - 1 - i by omega, pow_succ', mul_ite, mul_zero]

theorem coeff_blockPoly (x : Block) (i : Nat) :
    (blockPoly x).coeff i = if i < 128 ∧ x.getLsbD (127 - i) then 1 else 0 := by
  have hterm (k : Nat) : (if x.getLsbD (127 - k) then (X : (ZMod 2)[X]) ^ k else 0).coeff i =
      if i = k then (if x.getLsbD (127 - k) then 1 else 0) else 0 := by
    simp only [apply_ite (coeff · i), coeff_X_pow, coeff_zero, ← ite_and, and_comm]
  simp only [blockPoly_eq_sum, finsetSum_coeff, hterm]
  rw [Finset.sum_ite_eq]
  simp only [Finset.mem_range, ite_and]

theorem degree_blockPoly_lt (x : Block) : (blockPoly x).degree < (128 : ℕ) := by
  refine (degree_lt_iff_coeff_zero _ 128).2 fun i hi => ?_
  rw [coeff_blockPoly, if_neg (by omega)]

theorem blockPoly_injective : Function.Injective blockPoly := by
  intro x y h
  refine BitVec.eq_of_getLsbD_eq fun i hi => ?_
  have hc := congrArg (coeff · (127 - i)) h
  simp only [coeff_blockPoly, show 127 - (127 - i) = i by omega, show 127 - i < 128 by omega, true_and] at hc
  revert hc
  cases x.getLsbD i <;> cases y.getLsbD i <;> simp

theorem blockPoly_xor (x y : Block) : blockPoly (x ^^^ y) = blockPoly x + blockPoly y := by
  ext i
  simp only [coeff_add, coeff_blockPoly, BitVec.getLsbD_xor]
  by_cases hi : i < 128
  · cases x.getLsbD (127 - i) <;> cases y.getLsbD (127 - i) <;> simp [hi, CharTwo.add_self_eq_zero]
  · simp [hi]

theorem blockPoly_zero : blockPoly 0 = 0 := by
  ext i
  simp [coeff_blockPoly]

/-- The block with bit `127 - i` alone is x^i. -/
theorem blockPoly_twoPow {i : Nat} (hi : i < 128) : blockPoly (BitVec.twoPow 128 (127 - i)) = X ^ i := by
  ext j
  have hj : (j < 128 ∧ (BitVec.twoPow 128 (127 - i)).getLsbD (127 - j) = true) ↔ j = i := by
    simp only [BitVec.getLsbD_twoPow, Bool.and_eq_true, decide_eq_true_eq]
    omega
  simp only [coeff_blockPoly, coeff_X_pow, hj]

theorem X_mul_blockPoly (v : Block) :
    X * blockPoly v = blockPoly (v >>> 1) + if v.getLsbD 0 then X ^ 128 else 0 := by
  ext i
  rw [coeff_add, coeff_blockPoly, apply_ite (coeff · i), coeff_X_pow, coeff_zero, BitVec.getLsbD_ushiftRight]
  cases i with
  | zero => simp
  | succ i =>
    rw [coeff_X_mul, coeff_blockPoly]
    obtain hi | rfl | hi := Nat.lt_trichotomy i 127
    · rw [show 1 + (127 - (i + 1)) = 127 - i by omega]
      simp [show i < 128 by omega, show i + 1 < 128 by omega, show i + 1 ≠ 128 by omega]
    · simp
    · simp [show ¬ i < 128 by omega, show ¬ i + 1 < 128 by omega, show i + 1 ≠ 128 by omega]

/-! ### The residue class of a block -/

theorem degree_fieldModulus : fieldModulus.degree = (128 : ℕ) := by
  unfold fieldModulus
  compute_degree!

theorem monic_fieldModulus : fieldModulus.Monic := by
  unfold fieldModulus
  monicity!

/-- The field element a block stands for (R180, R182). -/
noncomputable def fieldElement (x : Block) : AdjoinRoot fieldModulus := AdjoinRoot.mk fieldModulus (blockPoly x)

theorem fieldElement_xor (x y : Block) : fieldElement (x ^^^ y) = fieldElement x + fieldElement y := by
  simp only [fieldElement, blockPoly_xor, map_add]

theorem fieldElement_zero : fieldElement 0 = 0 := by
  rw [fieldElement, blockPoly_zero, map_zero]

/-- A block's polynomial has a degree below that of the modulus. -/
theorem eq_zero_of_fieldElement_eq_zero {x : Block} (h : fieldElement x = 0) : x = 0 := by
  have hdeg : (blockPoly x).degree < fieldModulus.degree :=
    (degree_blockPoly_lt x).trans_eq degree_fieldModulus.symm
  have hpoly : blockPoly x = 0 := by
    by_contra hx
    exact AdjoinRoot.mk_ne_zero_of_degree_lt monic_fieldModulus hx hdeg h
  exact blockPoly_injective (hpoly.trans blockPoly_zero.symm)

theorem fieldElement_injective : Function.Injective fieldElement := by
  intro x y h
  have hxor : fieldElement (x ^^^ y) = 0 := by
    rw [fieldElement_xor, h, ← fieldElement_xor, BitVec.xor_self]
    exact fieldElement_zero
  exact BitVec.xor_eq_zero_iff.1 (eq_zero_of_fieldElement_eq_zero hxor)

theorem fieldElement_twoPow {i : Nat} (hi : i < 128) :
    fieldElement (BitVec.twoPow 128 (127 - i)) = AdjoinRoot.root fieldModulus ^ i := by
  rw [fieldElement, blockPoly_twoPow hi, map_pow, AdjoinRoot.mk_X]

theorem reductionConstant_eq_xor : reductionConstant = BitVec.twoPow 128 (127 - 7) ^^^ BitVec.twoPow 128 (127 - 2) ^^^
    BitVec.twoPow 128 (127 - 1) ^^^ BitVec.twoPow 128 (127 - 0) := by decide

/-- The modulus is x^128 and the polynomial of `Rc` (R182). -/
theorem fieldModulus_eq : fieldModulus = X ^ 128 + blockPoly reductionConstant := by
  rw [reductionConstant_eq_xor, blockPoly_xor, blockPoly_xor, blockPoly_xor, blockPoly_twoPow (by decide),
    blockPoly_twoPow (by decide), blockPoly_twoPow (by decide), blockPoly_twoPow (by decide), pow_one, pow_zero]
  unfold fieldModulus
  simp only [add_assoc]

/-- In the field x^128 is `Rc`. -/
theorem mk_X_pow_128 : AdjoinRoot.mk fieldModulus (X ^ 128) = fieldElement reductionConstant := by
  rw [fieldElement, AdjoinRoot.mk_eq_mk, CharTwo.sub_eq_add, ← fieldModulus_eq]

/-- The shift of the loop is the product by x. -/
theorem fieldElement_gfShift (v : Block) :
    fieldElement (gfShift v) = AdjoinRoot.root fieldModulus * fieldElement v := by
  have hx : AdjoinRoot.root fieldModulus * fieldElement v =
      fieldElement (v >>> 1) + AdjoinRoot.mk fieldModulus (if v.getLsbD 0 then X ^ 128 else 0) := by
    rw [fieldElement, ← AdjoinRoot.mk_X, ← map_mul, X_mul_blockPoly, map_add, fieldElement]
  rw [hx, gfShift]
  split
  · rw [fieldElement_xor, mk_X_pow_128]
  · rw [map_zero, add_zero]

theorem fieldElement_gfMulLoop (x : Block) (n : Nat) (z v : Block) :
    fieldElement (gfMulLoop x n z v) =
      fieldElement z + AdjoinRoot.mk fieldModulus (lowBitsPoly x n) * fieldElement v := by
  induction n generalizing z v with
  | zero => simp [gfMulLoop, lowBitsPoly]
  | succ n ih =>
    have hz : fieldElement (if x.getLsbD n then z ^^^ v else z) =
        fieldElement z + AdjoinRoot.mk fieldModulus (if x.getLsbD n then 1 else 0) * fieldElement v := by
      split
      · rw [fieldElement_xor, map_one, one_mul]
      · rw [map_zero, zero_mul, add_zero]
    rw [gfMulLoop, ih, hz, fieldElement_gfShift, lowBitsPoly_succ, map_add, map_mul, AdjoinRoot.mk_X]
    ring

theorem fieldElement_gfMul (x y : Block) : fieldElement (gfMul x y) = fieldElement x * fieldElement y := by
  rw [gfMul, fieldElement_gfMulLoop, fieldElement_zero, zero_add, ← blockPoly, ← fieldElement]

theorem blockPoly_mul (x y : Block) : ∃ q, blockPoly x * blockPoly y = blockPoly (gfMul x y) + q * fieldModulus := by
  have hclass : AdjoinRoot.mk fieldModulus (blockPoly x * blockPoly y) =
      AdjoinRoot.mk fieldModulus (blockPoly (gfMul x y)) := by
    rw [map_mul, ← fieldElement, ← fieldElement, ← fieldElement, fieldElement_gfMul]
  obtain ⟨q, hq⟩ := AdjoinRoot.mk_eq_mk.1 hclass
  exact ⟨q, by rw [mul_comm q, ← hq, add_sub_cancel]⟩

/-- Settles O56: equal classes differ by a multiple of the modulus. -/
theorem blockMultiplicationIsPolynomialProduct : Obligations.BlockMultiplicationIsPolynomialProduct := by
  intro x y
  simp only [← blockPoly_eq_sum]
  have h := blockPoly_mul x y
  unfold fieldModulus at h
  exact h

/-! ### The laws of R184 -/

theorem gfMul_comm (x y : Block) : gfMul x y = gfMul y x :=
  fieldElement_injective <| by rw [fieldElement_gfMul, fieldElement_gfMul, mul_comm]

theorem gfMul_assoc (x y z : Block) : gfMul (gfMul x y) z = gfMul x (gfMul y z) :=
  fieldElement_injective <| by simp only [fieldElement_gfMul, mul_assoc]

theorem gfMul_xor (x y z : Block) : gfMul x (y ^^^ z) = gfMul x y ^^^ gfMul x z :=
  fieldElement_injective <| by simp only [fieldElement_gfMul, fieldElement_xor, mul_add]

@[simp] theorem gfMul_zero (x : Block) : gfMul x 0 = 0 :=
  fieldElement_injective <| by rw [fieldElement_gfMul, fieldElement_zero, mul_zero]

@[simp] theorem zero_gfMul (y : Block) : gfMul 0 y = 0 := by rw [gfMul_comm, gfMul_zero]

/-- The field identity, R184. -/
theorem fieldElement_identity : fieldElement ((0x80 : Block) <<< 120) = 1 := by
  rw [show (0x80 : Block) <<< 120 = BitVec.twoPow 128 (127 - 0) by decide, fieldElement_twoPow (by decide), pow_zero]

theorem fieldElement_x : fieldElement ((0x40 : Block) <<< 120) = AdjoinRoot.root fieldModulus := by
  rw [show (0x40 : Block) <<< 120 = BitVec.twoPow 128 (127 - 1) by decide, fieldElement_twoPow (by decide), pow_one]

theorem gfMul_identity (x : Block) : gfMul x ((0x80 : Block) <<< 120) = x :=
  fieldElement_injective <| by rw [fieldElement_gfMul, fieldElement_identity, mul_one]

theorem gfMul_x (y : Block) : gfMul y ((0x40 : Block) <<< 120) = gfShift y :=
  fieldElement_injective <| by rw [fieldElement_gfMul, fieldElement_gfShift, fieldElement_x, mul_comm]

/-- Settles O55: the laws come from the ring of residue classes, and both examples are products by x. -/
theorem blockMultiplicationIsAFieldProduct : Obligations.BlockMultiplicationIsAFieldProduct := by
  refine ⟨fun x y z => ⟨gfMul_comm x y, gfMul_assoc x y z, gfMul_xor x y z, gfMul_identity x, ?_, gfMul_zero x,
    zero_gfMul x⟩, ?_, ?_⟩
  · rw [gfMul_comm, gfMul_identity]
  · rw [gfMul_x]; decide
  · rw [gfMul_x]; decide

end Sys2Proof.Machine
end

section
/-! PROOFS. GHASH_UPDATE, issued and completed: the passes of the multiplication one by one, and the corner cases. -/

namespace Sys2Proof.Machine

theorem exec_ghashUpdate {s : State} (hi : s.phase = .idle) :
    exec (.ghashUpdate 16) s = .next (acceptedState (.ghashUpdate 16 s.tag s.hkey s.bin) s) :=
  exec_acceptable (op := .ghashUpdate) hi rfl

/-- The completion writes the next tag and nothing else (R186). -/
theorem coreTurn_ghashUpdate (s : State) :
    coreTurn (acceptedState (.ghashUpdate 16 s.tag s.hkey s.bin) s) = { completedState s with
      tag := groupOfBlock (ghashUpdate (blockOfGroup s.tag) (blockOfGroup s.hkey) (blockOfGroup s.bin)) } :=
  coreTurn_acceptedState _ s

/-! ### The passes of the multiplication -/

/-- V after `i` passes of the loop of R183. -/
def gfMulShifted (y : Block) : Nat → Block
  | 0 => y
  | i + 1 => gfShift (gfMulShifted y i)

/-- Z after `i` passes of the loop of R183. -/
def gfMulSum (x y : Block) : Nat → Block
  | 0 => 0
  | i + 1 => if x.getLsbD (127 - i) then gfMulSum x y i ^^^ gfMulShifted y i else gfMulSum x y i

/-- From the pair after all but the last `n` passes, those give the pair after all of them. -/
theorem gfMulLoop_eq_gfMulSum (x y : Block) {n : Nat} (hn : n ≤ 128) :
    gfMulLoop x n (gfMulSum x y (128 - n)) (gfMulShifted y (128 - n)) = gfMulSum x y 128 := by
  induction n with
  | zero => rfl
  | succ n ih =>
    have hpass : 128 - n = 128 - (n + 1) + 1 := by omega
    have hbit : 127 - (128 - (n + 1)) = n := by omega
    rw [← ih (by omega), hpass, gfMulSum, gfMulShifted, hbit, gfMulLoop]

theorem gfMul_eq_gfMulSum (x y : Block) : gfMul x y = gfMulSum x y 128 := gfMulLoop_eq_gfMulSum x y (Nat.le_refl 128)

/-- Settles O26: the sequences are the pairs after each pass, for the live registers, which the latch holds. -/
theorem ghashUpdateWritesTheNextTag : Obligations.GhashUpdateWritesTheNextTag := by
  intro s hi
  refine ⟨exec_ghashUpdate hi, _, gfMulSum (blockOfGroup s.tag ^^^ blockOfGroup s.bin) (blockOfGroup s.hkey),
    gfMulShifted (blockOfGroup s.hkey), rfl, rfl, rfl, fun _ _ => rfl, fun _ _ => rfl, ?_⟩
  rw [coreTurn_ghashUpdate, ghashUpdate, gfMul_eq_gfMulSum]

/-! ### The corner cases -/

/-- Settles O30: the product with 0 and the product with the identity (R184). -/
theorem ghashUpdateCornerCases : Obligations.GhashUpdateCornerCases := by
  refine ⟨fun s hi => ⟨_, exec_ghashUpdate hi, ?_⟩, rfl⟩
  simp only [coreTurn_ghashUpdate, blockOfGroup_groupOfBlock, ghashUpdate]
  refine ⟨fun hh => ?_, fun hb => ?_, fun ht hh => ?_⟩
  · rw [hh, gfMul_zero]
  · rw [hb, BitVec.xor_self]
    exact zero_gfMul _
  · rw [ht, hh, gfMul_identity]
    exact (congrArg groupOfBlock (BitVec.zero_xor)).trans (groupOfBlock_blockOfGroup s.bin)

end Sys2Proof.Machine
end

section
/-! PROOFS. The events of a host program, line by line: each line leads from one state to the next, whatever waits
behind it, and so does a program. -/

namespace Sys2Proof.Machine

/-! ### What a list of events leads to -/

/-- The events `l` lead from `s` to `t`, whatever waits behind them. -/
def EventsLead (l : List Input) (s t : State) : Prop :=
  ∀ rest n, Host.Core.run core (l.length + n) { s with inputs := l ++ rest } =
    Host.Core.run core n { t with inputs := rest }

theorem EventsLead.nil (s : State) : EventsLead [] s s := fun rest n => by
  rw [List.length_nil, Nat.zero_add, List.nil_append]

theorem EventsLead.append {l₁ l₂ : List Input} {s t u : State} (h₁ : EventsLead l₁ s t) (h₂ : EventsLead l₂ t u) :
    EventsLead (l₁ ++ l₂) s u := fun rest n => by
  rw [List.length_append, Nat.add_assoc, List.append_assoc, h₁, h₂]

theorem EventsLead.single {e : Input} {s t : State}
    (h : ∀ rest, step { s with inputs := e :: rest } = .next { t with inputs := rest }) : EventsLead [e] s t :=
  fun rest n => by
    rw [List.length_singleton, Nat.add_comm, List.singleton_append]
    exact run_succ (h rest) n

/-- A run of just the waiting events ends where they lead. -/
theorem EventsLead.run {s t : State} (h : EventsLead s.inputs s t) :
    Host.Core.run core s.inputs.length s = .next { t with inputs := [] } := by
  have h := h [] 0
  rwa [List.append_nil] at h

/-! ### One event -/

theorem eventsLead_access {s t : State} {a : Access} {i : Instr} (hp : s.platform.present = true)
    (hr : s.inReset = false) (hd : decodeAccess s.platform.base a = .ok i)
    (h : ∀ rest, exec i { s with inputs := rest } = .next { t with inputs := rest }) :
    EventsLead [.access a] s t :=
  .single fun rest => (step_decoded (s := { s with inputs := .access a :: rest }) hp hr rfl hd).trans (h rest)

theorem eventsLead_read {s : State} (hp : s.platform.present = true) (hr : s.inReset = false) (r : Reg) :
    EventsLead [readInput s.platform.base r] s (respond (.data (readReg r s)) s) :=
  eventsLead_access hp hr (decodeAccess_read _ r) fun rest => by
    have hread : readReg r { s with inputs := rest } = readReg r s := by cases r <;> rfl
    rw [exec_rd, hread]
    rfl

theorem eventsLead_write {s : State} (hs : ready s) {r : Reg} (hne : r ≠ .cmd) (v : Word) :
    EventsLead [writeInput s.platform.base r v] s (respond .ack (writeReg r v s)) := by
  obtain ⟨hp, hr, hi⟩ := hs
  refine eventsLead_access hp hr (decodeAccess_write_of_ne_cmd _ hne v) fun rest => ?_
  rw [exec_wr_idle (s := { s with inputs := rest }) hi]
  cases r with
  | cmd => exact absurd rfl hne
  | _ => rfl

theorem eventsLead_command {s : State} (hs : ready s) {op : Op} {len : Len} (ha : Acceptable op len s.kv) :
    EventsLead [writeInput s.platform.base .cmd (encodeCommand op len)] s (acceptedState (snapshot op len s) s) := by
  obtain ⟨hp, hr, hi⟩ := hs
  refine eventsLead_access hp hr (decodeAccess_write_command _ op len) fun rest => ?_
  rw [exec_acceptable (s := { s with inputs := rest }) hi ha]
  cases op <;> rfl

/-- The core's completion of a command just accepted, whatever the port has answered since. -/
theorem eventsLead_completion {s : State} (hp : s.platform.present = true) (p : Pending) (q : Response) :
    EventsLead [.coreTurn] (respond q (acceptedState p s)) (respond q (effect p (completedState s))) :=
  .single fun rest => by
    refine (step_coreTurn (s := { acceptedState p s with resp := q, inputs := .coreTurn :: rest }) hp rfl).trans ?_
    rw [coreTurn_busy rfl rfl]
    cases p <;> rfl

/-! ### One line -/

theorem eventsLead_reads {s : State} (hp : s.platform.present = true) (hr : s.inReset = false) (r : Reg) (k : Nat) :
    ∃ q, EventsLead (List.replicate k (readInput s.platform.base r)) s (respond q s) := by
  induction k generalizing s with
  | zero => exact ⟨s.resp, .nil s⟩
  | succ k ih =>
    obtain ⟨q, hq⟩ := ih (s := respond (.data (readReg r s)) s) hp hr
    exact ⟨q, (eventsLead_read hp hr r).append hq⟩

/-- POLL after an accepted command: BUSY is read any number of times, the command completes, and one read follows. -/
theorem eventsLead_poll {s : State} (hp : s.platform.present = true) (hr : s.inReset = false) (p : Pending) (k : Nat) :
    ∃ q, EventsLead (lineInputs s.platform.base (.poll k)) (acceptedState p s)
      (respond q (effect p (completedState s))) := by
  obtain ⟨q, hreads⟩ := eventsLead_reads (s := acceptedState p s) hp hr .status k
  have hplatform : (respond q (effect p (completedState s))).platform = s.platform := effect_platform p _
  have hreset : (respond q (effect p (completedState s))).inReset = false := by
    rw [effect_eq]
    exact hr
  have hlast := eventsLead_read (hplatform ▸ hp) hreset .status
  rw [hplatform] at hlast
  exact ⟨_, hreads.append ((eventsLead_completion hp p q).append hlast)⟩

theorem set_four_eq_groupOfBlock (g : Vector Word 4) (b : Block) :
    (((g.set 0 (blockWord b 0)).set 1 (blockWord b 1)).set 2 (blockWord b 2)).set 3 (blockWord b 3) =
      groupOfBlock b := by
  refine Vector.ext fun i hi => ?_
  interval_cases i <;> simp [groupOfBlock]

/-- WRBLK BIN: the four writes fill the group. -/
theorem eventsLead_writeBin {s : State} (hs : ready s) (b : Block) :
    EventsLead (lineInputs s.platform.base (.wrblk .bin b)) s { s with bin := groupOfBlock b, resp := .ack } := by
  have hw (g : Vector Word 4) (q : Response) (j : Fin 4) (v : Word) :
      EventsLead [writeInput s.platform.base (.bin j) v] { s with bin := g, resp := q }
        { s with bin := g.set j v, resp := .ack } :=
    eventsLead_write (s := { s with bin := g, resp := q }) (r := .bin j) hs (fun h => nomatch h) v
  rw [← set_four_eq_groupOfBlock s.bin b]
  exact (hw s.bin s.resp 0 _).append ((hw _ _ 1 _).append ((hw _ _ 2 _).append (hw _ _ 3 _)))

/-! ### One block -/

theorem programInputs_append (base : Nat) (l₁ l₂ : List HostLine) :
    programInputs base (l₁ ++ l₂) = programInputs base l₁ ++ programInputs base l₂ := List.flatMap_append

/-- One block: BIN holds it, and the command has completed on it. -/
theorem eventsLead_block {s : State} (hs : ready s) {op : Op} {len : Len} (ha : Acceptable op len s.kv) (b : Block)
    (k : Nat) : ∃ q, EventsLead (programInputs s.platform.base [.wrblk .bin b, .cmd op len, .poll k]) s
      (respond q (effect (snapshot op len { s with bin := groupOfBlock b })
        (completedState { s with bin := groupOfBlock b }))) := by
  have hcmd := eventsLead_command (s := { s with bin := groupOfBlock b, resp := .ack }) hs ha
  have ⟨hp, hr, _⟩ := hs
  obtain ⟨q, hpoll⟩ := eventsLead_poll (s := { s with bin := groupOfBlock b, resp := .ack }) hp hr
    (snapshot op len { s with bin := groupOfBlock b }) k
  have hlines : programInputs s.platform.base [.wrblk .bin b, .cmd op len, .poll k] =
      lineInputs s.platform.base (.wrblk .bin b) ++
        (lineInputs s.platform.base (.cmd op len) ++ lineInputs s.platform.base (.poll k)) := by
    simp [programInputs]
  rw [hlines]
  exact ⟨q, (eventsLead_writeBin hs b).append (hcmd.append hpoll)⟩

end Sys2Proof.Machine
end

section
/-! PROOFS. A stream of GHASH_UPDATE commands: each block moves TAG on by one update, with the same hash subkey. -/

namespace Sys2Proof.Machine

theorem eventsLead_ghashUpdate {s : State} (hs : ready s) (b : Block) (k : Nat) :
    ∃ t, EventsLead (programInputs s.platform.base [.wrblk .bin b, .cmd .ghashUpdate 16, .poll k]) s t ∧
      ready t ∧ t.platform = s.platform ∧ t.hkey = s.hkey ∧
      blockOfGroup t.tag = ghashUpdate (blockOfGroup s.tag) (blockOfGroup s.hkey) b := by
  obtain ⟨q, h⟩ := eventsLead_block (op := .ghashUpdate) (len := 16) hs rfl b k
  obtain ⟨hp, hr, -⟩ := hs
  refine ⟨_, h, ⟨hp, hr, rfl⟩, rfl, rfl, ?_⟩
  exact (blockOfGroup_groupOfBlock _).trans (congrArg _ (blockOfGroup_groupOfBlock b))

theorem eventsLead_ghashStream (blocks : List (Block × Nat)) {s : State} (hs : ready s) :
    ∃ t, EventsLead (programInputs s.platform.base
        (blocks.flatMap fun b => [.wrblk .bin b.1, .cmd .ghashUpdate 16, .poll b.2])) s t ∧ ready t ∧
      t.hkey = s.hkey ∧ blockOfGroup t.tag =
        blocks.foldl (fun tag b => ghashUpdate tag (blockOfGroup s.hkey) b.1) (blockOfGroup s.tag) := by
  induction blocks generalizing s with
  | nil => exact ⟨s, .nil s, hs, rfl, rfl⟩
  | cons b blocks ih =>
    obtain ⟨t, hst, ht, hplatform, hkey, htag⟩ := eventsLead_ghashUpdate hs b.1 b.2
    obtain ⟨u, htu, hu, hkey', htag'⟩ := ih ht
    rw [hplatform] at htu
    rw [List.flatMap_cons, programInputs_append, List.foldl_cons, ← htag]
    exact ⟨u, hst.append htu, hu, hkey'.trans hkey, hkey ▸ htag'⟩

/-- Settles O36, block by block; nothing waits behind the stream. -/
theorem ghashStreamChains : Obligations.GhashStreamChains := by
  intro s blocks hs hi
  obtain ⟨t, h, ⟨-, -, hidle⟩, hkey, htag⟩ := eventsLead_ghashStream blocks hs
  rw [← hi] at h
  exact ⟨_, h.run, htag, hkey, hidle⟩

end Sys2Proof.Machine
end

section
/-! PROOFS. Control: acceptance, the core's completion step, and host accesses while a command runs. -/

namespace Sys2Proof.Machine

/-! ### Acceptance -/

/-- Settles O17: `exec_acceptable` for each of the five commands, with the snapshot each takes. -/
theorem acceptedCommandsAreLatched : Obligations.AcceptedCommandsAreLatched := fun _ _ hi =>
  ⟨exec_acceptable (op := .expand) hi, exec_acceptable (op := .encrypt) hi, exec_acceptable (op := .decrypt) hi,
    exec_acceptable (op := .ghashUpdate) hi, exec_acceptable (op := .zeroize) hi⟩

/-- Settles O27: ZEROIZE passes the check whatever LEN and KV are, and its effect on the completed state is the clearing
of every key and data register. -/
theorem zeroizeClearsEverything : Obligations.ZeroizeClearsEverything := fun s _ hi =>
  ⟨exec_acceptable (op := .zeroize) hi trivial, coreTurn_acceptedState _ s⟩

/-! ### The core's turn -/

/-- Settles O31: the flags of a completion are those `finish` sets, since no command's effect writes any of them. -/
theorem completionIsTheCoresOnlyStep : Obligations.CompletionIsTheCoresOnlyStep := by
  intro s hp
  refine ⟨fun rest hi => step_coreTurn hp hi, fun hi => step_nil hp hi, coreTurn_idle, fun p hb hpend => ?_⟩
  rw [coreTurn_busy hb hpend, effect_eq]
  exact ⟨rfl, rfl, rfl, rfl, rfl, rfl⟩

theorem coreTurn_of_pend_none {s : State} (h : s.pend = none) : coreTurn s = s := by
  obtain ⟨-, h'⟩ | ⟨-, -, h'⟩ | ⟨p, -, hp, -⟩ := coreTurn_cases s
  · exact h'
  · exact h'
  · cases h.symm.trans hp

/-- The core's turn neither reads nor writes OVR, the port's answer and the waiting events. -/
theorem coreTurn_port (s : State) (ovr : Bool) (resp : Response) (inputs : List Input) :
    coreTurn { s with ovr := ovr, resp := resp, inputs := inputs } =
      { coreTurn s with ovr := ovr, resp := resp, inputs := inputs } := by
  obtain ⟨hi, h⟩ | ⟨-, hn, h⟩ | ⟨p, hb, hp, h⟩ := coreTurn_cases s
  · rw [h]
    exact coreTurn_idle hi
  · rw [h]
    exact coreTurn_of_pend_none hn
  · rw [h]
    refine (coreTurn_busy (s := { s with ovr := ovr, resp := resp, inputs := inputs }) hb hp).trans ?_
    cases p <;> rfl

theorem coreTurn_inputs (s : State) : (coreTurn s).inputs = s.inputs :=
  (congrArg State.inputs (coreTurn_port s s.ovr s.resp s.inputs) :)

/-! ### Host accesses while BUSY -/

theorem hostAccess_error_ovr {a : Access} {s t : State} {e : Reject} (hd : decodeAccess s.platform.base a = .error e)
    (h : hostAccess a s = .next t) : t.ovr = s.ovr := by
  obtain ⟨-, ⟨i, hi, -⟩ | ⟨-, -, -, rfl⟩⟩ := hostAccess_cases h
  · cases hd.symm.trans hi
  · rfl

/-- Settles O13: a write to a register and a command word are both dropped, and the core's turn does not see OVR. -/
theorem writesWhileBusyAreDropped : Obligations.WritesWhileBusyAreDropped := by
  intro s hb
  refine ⟨exec_wr_busy hb, fun w => exec_busy hb (decodeCommand w), ?_, fun a rest e t hi hd h => ?_⟩
  · simp only [coreTurn_inputs]
    exact coreTurn_port s true .ack s.inputs
  · obtain ⟨hp, -⟩ := step_cases h
    rw [step_access hp hi] at h
    exact hostAccess_error_ovr (s := { s with inputs := rest }) hd h

/-- Accesses to the window that find the core BUSY take one step each, and leave everything but OVR and the port's
answer as it was. -/
theorem run_accesses_busy (accesses : List Access) {s : State} (n : Nat) (hp : s.platform.present = true)
    (hr : s.inReset = false) (hb : s.phase = .busy) (hi : s.inputs = accesses.map .access)
    (hin : ∀ a ∈ accesses, s.platform.base ≤ a.addr ∧ a.addr < s.platform.base + windowBytes) :
    ∃ ovr resp, Host.Core.run core (accesses.length + n) s =
      Host.Core.run core n { s with ovr := ovr, resp := resp, inputs := [] } := by
  induction accesses generalizing s with
  | nil =>
    have hs : { s with inputs := [] } = s := congrArg (fun l => { s with inputs := l }) hi.symm
    exact ⟨s.ovr, s.resp, by rw [List.length_nil, Nat.zero_add, hs]⟩
  | cons a accesses ih =>
    obtain ⟨⟨h1, h2⟩, hrest⟩ := List.forall_mem_cons.1 hin
    obtain ⟨t, ht⟩ := hostAccess_next (s := { s with inputs := accesses.map .access }) hr h1 h2
    have hstep : step s = .next t := (step_access hp hi).trans ht
    obtain ⟨ovr, resp, rfl⟩ : ∃ ovr resp, t = { s with ovr := ovr, resp := resp, inputs := accesses.map .access } :=
      ⟨_, _, hostAccess_busy_frame (s := { s with inputs := accesses.map .access }) hb ht⟩
    obtain ⟨ovr', resp', h⟩ := ih (s := { s with ovr := ovr, resp := resp, inputs := accesses.map .access })
      hp hr hb rfl hrest
    exact ⟨ovr', resp', by rw [List.length_cons, Nat.add_right_comm, run_succ hstep, h]⟩

/-- Settles O35: the accesses change only what the core's turn neither reads nor writes, and with no event left the core
has the turn. -/
theorem completionFollowsAnyAccesses : Obligations.CompletionFollowsAnyAccesses := by
  intro s p accesses hp hr hb hpend hi hin
  obtain ⟨ovr, resp, hrun⟩ := run_accesses_busy accesses 1 hp hr hb hi hin
  have hlast : step { s with ovr := ovr, resp := resp, inputs := [] } =
      .next { coreTurn s with ovr := ovr, resp := resp, inputs := [] } :=
    (step_nil (s := { s with ovr := ovr, resp := resp, inputs := [] }) hp rfl).trans
      (congrArg Host.Outcome.next (coreTurn_port s ovr resp []))
  refine ⟨_, hrun.trans (run_succ hlast 0), rfl, ?_⟩
  rw [coreTurn_busy hb hpend]
  exact ⟨rfl, rfl⟩

end Sys2Proof.Machine
end

section
/-! PROOFS. ENCRYPT and DECRYPT commands over one schedule: each leaves the schedule as it was, so each gives its block
the result it gives alone. -/

namespace Sys2Proof.Machine

/-- The lines of one job (encrypt?, block, reads of STATUS until it completes). -/
abbrev jobLines (job : Bool × Block × Nat) : List HostLine :=
  [.wrblk .bin job.2.1, .cmd (if job.1 then .encrypt else .decrypt) 16, .poll job.2.2]

/-- The result the block `b` has alone, over a schedule and its key size. -/
abbrev jobResult (rk : Vector Block 28) (ksz encrypt : Bool) (b : Block) : Block :=
  if encrypt then cipher (roundCount ksz) rk b else invCipher (roundCount ksz) rk b

/-- A job's completion writes its result to BOUT and changes nothing else (R165, R166). -/
theorem effect_job (encrypt : Bool) (b : Block) (s t : State) :
    effect (snapshot (if encrypt then .encrypt else .decrypt) 16 { s with bin := groupOfBlock b }) t =
      { t with bout := groupOfBlock (jobResult s.rk s.ksz encrypt b) } := by
  cases encrypt with
  | true => simp [jobResult, snapshot, effect, completeEncrypt, blockOfGroup_groupOfBlock]
  | false => simp [jobResult, snapshot, effect, completeDecrypt, blockOfGroup_groupOfBlock]

/-- `t` is ready for a command, on the platform and with the schedule of `s`. -/
structure ReadyWithScheduleOf (s t : State) : Prop where
  ready : ready t
  platform : t.platform = s.platform
  rk : t.rk = s.rk
  kv : t.kv = s.kv
  ksz : t.ksz = s.ksz

/-- One job, at any state that still has the schedule of `s`. -/
theorem eventsLead_job {s t : State} (h : ReadyWithScheduleOf s t) (hkv : s.kv = true) (job : Bool × Block × Nat) :
    ∃ u, EventsLead (programInputs s.platform.base (jobLines job)) t u ∧ ReadyWithScheduleOf s u ∧
      blockOfGroup u.bout = jobResult s.rk s.ksz job.1 job.2.1 := by
  obtain ⟨hready, hplatform, hrk, hkv', hksz⟩ := h
  have ha : Acceptable (if job.1 then .encrypt else .decrypt) 16 t.kv := by
    split <;> exact ⟨rfl, hkv'.trans hkv⟩
  obtain ⟨q, hlead⟩ := eventsLead_block hready ha job.2.1 job.2.2
  obtain ⟨hp, hr, -⟩ := hready
  rw [effect_job] at hlead
  rw [← hplatform, ← hrk, ← hksz]
  exact ⟨_, hlead, ⟨⟨hp, hr, rfl⟩, hplatform, hrk, hkv', hksz⟩, blockOfGroup_groupOfBlock _⟩

theorem eventsLead_jobs (jobs : List (Bool × Block × Nat)) {s t : State} (h : ReadyWithScheduleOf s t)
    (hkv : s.kv = true) :
    ∃ u, EventsLead (programInputs s.platform.base (jobs.flatMap jobLines)) t u ∧ ReadyWithScheduleOf s u := by
  induction jobs generalizing t with
  | nil => exact ⟨t, .nil t, h⟩
  | cons job jobs ih =>
    obtain ⟨u, htu, hu, -⟩ := eventsLead_job h hkv job
    obtain ⟨v, huv, hv⟩ := ih hu
    rw [List.flatMap_cons, programInputs_append]
    exact ⟨v, htu.append huv, hv⟩

/-- Settles O37: the jobs before the last keep the schedule, and the last one's result is over it. -/
theorem scheduleIsSharedByCommands : Obligations.ScheduleIsSharedByCommands := by
  intro s jobs job hs hkv hi
  obtain ⟨t, hst, ht⟩ := eventsLead_jobs jobs ⟨hs, rfl, rfl, rfl, rfl⟩ hkv
  obtain ⟨u, htu, hu, hbout⟩ := eventsLead_job ht hkv job
  have hprogram : s.inputs = programInputs s.platform.base (jobs.flatMap jobLines) ++
      programInputs s.platform.base (jobLines job) := by
    rw [hi, List.flatMap_append, List.flatMap_singleton, programInputs_append]
  exact ⟨_, (hprogram ▸ hst.append htu : EventsLead s.inputs s u).run, hu.rk, hu.kv.trans hkv, hu.ksz, hbout⟩

end Sys2Proof.Machine
end

section
/-! PROOFS. Command words and illegal words by their fields: an illegal word has a reserved bit set, or an OP that R74
does not name (R230). -/

namespace Sys2Proof

/-! ### OP codes -/

theorem opCode_inj {op op' : Op} : opCode op = opCode op' ↔ op = op' :=
  ⟨fun h => Option.some.inj (by rw [← opOfCode_opCode op, h, opOfCode_opCode]), congrArg opCode⟩

theorem opCode_eq_expand (op : Op) : opCode op = 0x1 ↔ op = .expand := opCode_inj (op' := .expand)
theorem opCode_eq_encrypt (op : Op) : opCode op = 0x2 ↔ op = .encrypt := opCode_inj (op' := .encrypt)
theorem opCode_eq_decrypt (op : Op) : opCode op = 0x3 ↔ op = .decrypt := opCode_inj (op' := .decrypt)
theorem opCode_eq_ghashUpdate (op : Op) : opCode op = 0x4 ↔ op = .ghashUpdate := opCode_inj (op' := .ghashUpdate)

theorem opOfCode_eq_none_iff (c : BitVec 4) : opOfCode c = none ↔ c = 0x0 ∨ (0x5 ≤ c ∧ c ≤ 0xE) := by
  revert c; decide

/-! ### Illegal words -/

/-- The illegal words of R230. -/
def IllegalWord (w : Word) : Prop :=
  w.extractLsb' 14 18 ≠ 0 ∨ w.extractLsb' 4 4 ≠ 0 ∨
    w.extractLsb' 0 4 = 0x0 ∨ (0x5 ≤ w.extractLsb' 0 4 ∧ w.extractLsb' 0 4 ≤ 0xE)

theorem decodeWord_of_illegalWord {w : Word} (h : IllegalWord w) : decodeWord w = .illegal w := by
  rw [IllegalWord, ← opOfCode_eq_none_iff] at h
  by_cases hreserved : w.extractLsb' 14 18 ≠ 0 ∨ w.extractLsb' 4 4 ≠ 0
  · rw [decodeWord, decodeCommand_of_reserved hreserved, instrOfCommand]
  · have hop := (or_assoc.2 h).resolve_left hreserved
    rw [decodeWord, decodeCommand, if_neg hreserved, hop, instrOfCommand]

/-- A word that is not illegal carries one of the five commands. -/
theorem exists_opCode_of_not_illegalWord {w : Word} (h : ¬ IllegalWord w) : ∃ op, w.extractLsb' 0 4 = opCode op := by
  rw [IllegalWord, ← opOfCode_eq_none_iff, not_or, not_or] at h
  obtain ⟨-, -, hop⟩ := h
  obtain ⟨op, hop⟩ := Option.ne_none_iff_exists'.1 hop
  exact ⟨op, opCode_of_opOfCode hop⟩

theorem decodeWord_of_opCode {w : Word} {op : Op} (h : ¬ IllegalWord w) (hop : w.extractLsb' 0 4 = opCode op) :
    decodeWord w = instrOfCommand (.cmd op (w.extractLsb' 8 6)) := by
  rw [IllegalWord, not_or, not_or, not_not, not_not] at h
  obtain ⟨hhigh, hlow, -⟩ := h
  simp [decodeWord, decodeCommand, hhigh, hlow, hop, opOfCode_opCode]

theorem extractLsb'_ne_zero_of_getLsbD {n start len i : Nat} {w : BitVec n} (h1 : start ≤ i) (h2 : i < start + len)
    (hbit : w.getLsbD i = true) : w.extractLsb' start len ≠ 0 := by
  intro h
  have hzero : (w.extractLsb' start len).getLsbD (i - start) = false := by rw [h]; exact BitVec.getLsbD_zero
  rw [BitVec.getLsbD_extractLsb', Nat.add_sub_cancel' h1, hbit, Bool.and_true, decide_eq_false_iff_not] at hzero
  omega

/-- A bit of 31:14 or 7:4 makes a word illegal. -/
theorem illegalWord_of_getLsbD {w : Word} {i : Nat} (hi : i < 32) (h : 14 ≤ i ∨ (4 ≤ i ∧ i < 8))
    (hbit : w.getLsbD i = true) : IllegalWord w := by
  obtain h14 | ⟨h4, h8⟩ := h
  · exact .inl (extractLsb'_ne_zero_of_getLsbD h14 hi hbit)
  · exact .inr (.inl (extractLsb'_ne_zero_of_getLsbD h4 h8 hbit))

end Sys2Proof
end

section
/-! PROOFS. The checks of an issued command: which one fails first, with which code, and what a rejection changes. -/

namespace Sys2Proof.Machine

/-! ### The check, test by test -/

theorem check_unsupportedKeySize {op : Op} {len : Len} (h : op = .expand ∧ len ≠ 16 ∧ len ≠ 32) (kv : Bool) :
    check (.cmd op len) kv = .unsupportedKeySize := if_pos h

theorem check_invalidBlockLength {op : Op} {len : Len}
    (h : (op = .encrypt ∨ op = .decrypt ∨ op = .ghashUpdate) ∧ len ≠ 16) (kv : Bool) :
    check (.cmd op len) kv = .invalidBlockLength := by
  have hop : op ≠ .expand := by rintro rfl; simp at h
  rw [check, if_neg fun hkey => hop hkey.1, if_pos h]

theorem check_noSchedule {op : Op} {kv : Bool} (h : (op = .encrypt ∨ op = .decrypt) ∧ kv = false) :
    check (.cmd op 16) kv = .noSchedule := by
  obtain ⟨rfl | rfl, rfl⟩ := h <;> rfl

theorem acceptable_of_no_failing_test {op : Op} {len : Len} {kv : Bool}
    (hkey : ¬ (op = .expand ∧ len ≠ 16 ∧ len ≠ 32))
    (hblock : ¬ ((op = .encrypt ∨ op = .decrypt ∨ op = .ghashUpdate) ∧ len ≠ 16))
    (hschedule : ¬ ((op = .encrypt ∨ op = .decrypt) ∧ kv = false)) : Acceptable op len kv :=
  (check_none_iff op len kv).1 (by rw [check, if_neg hkey, if_neg hblock, if_neg hschedule])

/-! ### A rejected command -/

section
variable {s : State} (hi : s.phase = .idle)
include hi

theorem exec_illegal (w : Word) : exec (.illegal w) s = .next (rejectedState .illegalCommand s) :=
  exec_rejected (c := .illegal w) hi rfl nofun

theorem exec_illegalWord {w : Word} (h : IllegalWord w) :
    exec (decodeWord w) s = .next (rejectedState .illegalCommand s) := by
  rw [decodeWord_of_illegalWord h, exec_illegal hi]

theorem exec_unsupportedKeySize {op : Op} {len : Len} (h : op = .expand ∧ len ≠ 16 ∧ len ≠ 32) :
    exec (instrOfCommand (.cmd op len)) s = .next (rejectedState .unsupportedKeySize s) :=
  exec_rejected hi (check_unsupportedKeySize h _) nofun

theorem exec_invalidBlockLength {op : Op} {len : Len}
    (h : (op = .encrypt ∨ op = .decrypt ∨ op = .ghashUpdate) ∧ len ≠ 16) :
    exec (instrOfCommand (.cmd op len)) s = .next (rejectedState .invalidBlockLength s) :=
  exec_rejected hi (check_invalidBlockLength h _) nofun

theorem exec_noSchedule {op : Op} (h : (op = .encrypt ∨ op = .decrypt) ∧ s.kv = false) :
    exec (instrOfCommand (.cmd op 16)) s = .next (rejectedState .noSchedule s) :=
  exec_rejected hi (check_noSchedule h) nofun

end

/-- Settles O18: a command that is not acceptable fails the check, and `exec_rejected` gives the whole next state. -/
theorem rejectedCommandsChangeOnlyStatus : Obligations.RejectedCommandsChangeOnlyStatus := fun s hi =>
  ⟨exec_illegal hi, fun op len hna =>
    have hfail : check (.cmd op len) s.kv ≠ .none := mt (check_none_iff op len s.kv).1 hna
    ⟨_, hfail, exec_rejected hi rfl hfail⟩⟩

/-- Settles O20: each command with its failing test, and the two kinds of illegal words. -/
theorem structuralErrorsHaveTheirCodes : Obligations.StructuralErrorsHaveTheirCodes := by
  refine ⟨rfl, rfl, rfl, fun s len hi => ⟨fun h16 h32 => exec_unsupportedKeySize (op := .expand) hi ⟨rfl, h16, h32⟩,
    exec_expand hi, fun h16 => exec_invalidBlockLength (op := .encrypt) hi ⟨.inl rfl, h16⟩,
    fun h16 => exec_invalidBlockLength (op := .decrypt) hi ⟨.inr (.inl rfl), h16⟩,
    fun h16 => exec_invalidBlockLength (op := .ghashUpdate) hi ⟨.inr (.inr rfl), h16⟩, ?_⟩⟩
  rintro w (⟨i, h32, hreserved, hbit⟩ | hop)
  · exact exec_illegalWord hi (illegalWord_of_getLsbD h32 hreserved hbit)
  · exact exec_illegalWord hi (.inr (.inr hop))

/-- Settles O21: the check's last test, with KV = 0 at reset and after `completeZeroize`. -/
theorem blockCommandsNeedASchedule : Obligations.BlockCommandsNeedASchedule :=
  ⟨rfl, fun _ hi hkv => ⟨exec_noSchedule (op := .encrypt) hi ⟨.inl rfl, hkv⟩,
    exec_noSchedule (op := .decrypt) hi ⟨.inr rfl, hkv⟩⟩, rfl, fun _ _ hb hp => by
    rw [coreTurn_busy hb hp]
    exact ⟨rfl, rfl⟩⟩

/-! ### The first failing check, on the fields of the word -/

/-- Settles O19: the OP of a word that is not illegal names a command, and the tests on it are those of `check`. -/
theorem firstFailingCheckIsReported : Obligations.FirstFailingCheckIsReported := by
  intro s w hi
  by_cases hl : IllegalWord w
  · exact ⟨fun _ => exec_illegalWord hi hl, absurd hl, absurd hl, absurd hl, absurd hl⟩
  · obtain ⟨op, hop⟩ := exists_opCode_of_not_illegalWord hl
    refine ⟨fun h => absurd h hl, ?_⟩
    simp only [decodeWord_of_opCode hl hop, hop, opCode_eq_expand, opCode_eq_encrypt, opCode_eq_decrypt,
      opCode_eq_ghashUpdate]
    refine ⟨fun _ hkey => exec_unsupportedKeySize hi hkey, fun _ hblock => exec_invalidBlockLength hi hblock,
      fun _ hblock hschedule => ?_,
      fun _ hkey hblock hschedule => ⟨_, exec_acceptable hi (acceptable_of_no_failing_test hkey hblock hschedule)⟩⟩
    obtain ⟨hcipher, hkv⟩ := hschedule
    have h16 : w.extractLsb' 8 6 = 16 := not_not.1 fun h => hblock ⟨hcipher.imp_right .inl, h⟩
    rw [h16]
    exact exec_noSchedule hi ⟨hcipher, hkv⟩

end Sys2Proof.Machine
end

section
/-! PROOFS. A word write and a completion, in either order: the write finds the core BUSY before the completion and idle
after it, and neither event reads what the other writes. -/

namespace Sys2Proof.Machine

/-! ### What a write and a completion do not read -/

theorem issue_inputs (c : Command) (s : State) (inputs : List Input) :
    issue c { s with inputs := inputs } = { issue c s with inputs := inputs } := by
  by_cases he : check c s.kv = .none
  · cases c with
    | illegal w => cases he
    | cmd op len =>
      have ha := (check_none_iff op len s.kv).1 he
      rw [issue_of_acceptable ha, issue_of_acceptable (s := { s with inputs := inputs }) ha]
      cases op <;> rfl
  · rw [issue_of_check rfl he, issue_of_check (s := { s with inputs := inputs }) rfl he]
    rfl

/-- A write to a register, CMD among them, neither reads nor writes the waiting events. -/
theorem writeReg_inputs (r : Reg) (v : Word) (s : State) (inputs : List Input) :
    writeReg r v { s with inputs := inputs } = { writeReg r v s with inputs := inputs } := by
  cases r with
  | cmd => exact issue_inputs (decodeCommand v) s inputs
  | _ => rfl

theorem coreTurn_ovr (s : State) : (coreTurn s).ovr = s.ovr :=
  (congrArg State.ovr (coreTurn_port s s.ovr s.resp s.inputs) :)

theorem coreTurn_resp (s : State) : (coreTurn s).resp = s.resp :=
  (congrArg State.resp (coreTurn_port s s.ovr s.resp s.inputs) :)

theorem coreTurn_with_inputs (s : State) (inputs : List Input) :
    coreTurn { s with inputs := inputs } = { coreTurn s with inputs := inputs } := by
  rw [coreTurn_port s s.ovr s.resp inputs]
  simp only [coreTurn_ovr, coreTurn_resp]

/-- A completion leaves a core that is ready for the next access, with nothing latched. -/
theorem coreTurn_ready {s : State} {p : Pending} (hp : s.platform.present = true) (hr : s.inReset = false)
    (hb : s.phase = .busy) (hpend : s.pend = some p) : ready (coreTurn s) ∧ (coreTurn s).pend = none := by
  rw [coreTurn_busy hb hpend, effect_eq]
  exact ⟨⟨hp, hr, rfl⟩, rfl⟩

/-! ### The two events -/

theorem eventsLead_coreTurn {s : State} (hp : s.platform.present = true) :
    EventsLead [.coreTurn] s (coreTurn s) :=
  .single fun rest => (step_coreTurn (s := { s with inputs := .coreTurn :: rest }) hp rfl).trans
    (congrArg Host.Outcome.next (coreTurn_with_inputs s rest))

/-- The write to a register, CMD among them, runs `.wr`. -/
theorem eventsLead_wr {s t : State} {r : Reg} {v : Word} (hp : s.platform.present = true) (hr : s.inReset = false)
    (h : ∀ rest, exec (.wr r v) { s with inputs := rest } = .next { t with inputs := rest }) :
    EventsLead [writeInput s.platform.base r v] s t := by
  by_cases hcmd : r = .cmd
  · subst hcmd
    exact eventsLead_access hp hr (decodeAccess_write_cmd _ v) fun rest => (exec_decodeWord v _).trans (h rest)
  · exact eventsLead_access hp hr (decodeAccess_write_of_ne_cmd _ hcmd v) h

theorem eventsLead_wr_busy {s : State} (hp : s.platform.present = true) (hr : s.inReset = false)
    (hb : s.phase = .busy) (r : Reg) (v : Word) :
    EventsLead [writeInput s.platform.base r v] s (droppedState s) :=
  eventsLead_wr hp hr fun rest => exec_wr_busy (s := { s with inputs := rest }) hb r v

theorem eventsLead_wr_idle {s : State} (hs : ready s) (r : Reg) (v : Word) :
    EventsLead [writeInput s.platform.base r v] s (respond .ack (writeReg r v s)) := by
  obtain ⟨hp, hr, hi⟩ := hs
  refine eventsLead_wr hp hr fun rest => ?_
  rw [exec_wr_idle (s := { s with inputs := rest }) hi, writeReg_inputs]
  rfl

/-! ### The registers after a data write -/

/-- Of KEY, BIN, TAG and HKEY a write changes only the word it names. -/
theorem writeReg_groups {r : Reg} (hne : r ≠ .cmd) (v : Word) (s : State) :
    ((∀ j, r ≠ .key j) → (writeReg r v s).key = s.key) ∧ (∀ j, r = .key j → (writeReg r v s).key = s.key.set j v) ∧
    ((∀ j, r ≠ .bin j) → (writeReg r v s).bin = s.bin) ∧ (∀ j, r = .bin j → (writeReg r v s).bin = s.bin.set j v) ∧
    ((∀ j, r ≠ .tag j) → (writeReg r v s).tag = s.tag) ∧ (∀ j, r = .tag j → (writeReg r v s).tag = s.tag.set j v) ∧
    ((∀ j, r ≠ .hkey j) → (writeReg r v s).hkey = s.hkey) ∧
    (∀ j, r = .hkey j → (writeReg r v s).hkey = s.hkey.set j v) := by
  cases r with
  | cmd => exact absurd rfl hne
  | status | rsvLow | rsvHigh | bout | key | bin | tag | hkey => simp [writeReg]

/-- Settles O34: the completion carries the dropped write's OVR along, and after it the write is `writeReg`, which
changes nothing but the word it names. -/
theorem writeAndCompletionInEitherOrder : Obligations.WriteAndCompletionInEitherOrder := by
  intro s p r v hp hr hb hpend
  obtain ⟨hready, hnone⟩ := coreTurn_ready hp hr hb hpend
  obtain ⟨-, -, hturn, -⟩ := writesWhileBusyAreDropped s hb
  have hdropped : EventsLead [writeInput s.platform.base r v, .coreTurn] s
      { coreTurn s with ovr := true, resp := .ack } :=
    hturn ▸ (eventsLead_wr_busy hp hr hb r v).append (eventsLead_coreTurn hp)
  have hperformed : EventsLead [.coreTurn, writeInput s.platform.base r v] s
      (respond .ack (writeReg r v (coreTurn s))) :=
    (eventsLead_coreTurn hp).append (coreTurn_platform s ▸ eventsLead_wr_idle hready r v)
  refine ⟨_, _, hdropped.run (s := { s with inputs := _ }), hperformed.run (s := { s with inputs := _ }), rfl, rfl,
    fun hne => ?_⟩
  have hw := writeReg_eq hne v (coreTurn s)
  have hovr : (writeReg r v (coreTurn s)).ovr = s.ovr := (congrArg State.ovr hw).trans (coreTurn_ovr s)
  have hflags : flagsOf (writeReg r v (coreTurn s)) = { flagsOf (coreTurn s) with ovr := s.ovr } := by
    rw [flagsOf_writeReg hne, ← coreTurn_ovr s]
    rfl
  have hpend' : (writeReg r v (coreTurn s)).pend = none := (congrArg State.pend hw).trans hnone
  exact ⟨hovr, hflags, (congrArg State.rk hw :), (congrArg State.bout hw :), hpend', hnone,
    writeReg_groups hne v (coreTurn s)⟩

end Sys2Proof.Machine
end

section
/-! PROOFS. What EXPAND and reset clear: EXPAND consumes the key it read, and reset abandons whatever was running. -/

namespace Sys2Proof.Machine

/-- EXPAND issued in an idle state and completed: the schedule of its key stands in RK, and KEY is zero (R145, R146). -/
theorem expand_issued_and_completed {s : State} {len : Len} (hi : s.phase = .idle) (hl : len = 16 ∨ len = 32) :
    ∃ t, exec (.expand len) s = .next t ∧ coreTurn t = completeExpand len s.key (completedState s) :=
  ⟨_, exec_expand hi hl, coreTurn_acceptedState _ s⟩

/-- Settles O29: the first EXPAND leaves an idle core with KEY zero, and the second expands that key. -/
theorem secondExpandUsesTheZeroKey : Obligations.SecondExpandUsesTheZeroKey := by
  intro s len len' hi hl hl'
  obtain ⟨t, hissue, hturn⟩ := expand_issued_and_completed hi hl
  have hidle : (coreTurn t).phase = .idle := congrArg State.phase hturn
  have hkey : (coreTurn t).key = Vector.replicate 8 0 := by rw [hturn, completeExpand_key]
  obtain ⟨u, hissue', hturn'⟩ := expand_issued_and_completed hidle hl'
  refine ⟨t, u, hissue, hissue', ?_⟩
  rw [hturn', completeExpand_rk, hkey]

/-- Settles O39: the step is `assertReset` in every phase, and that keeps only the platform and the waiting events. -/
theorem resetClearsAnyState : Obligations.ResetClearsAnyState := fun _ _ hp hi => step_resetAssert hp hi

end Sys2Proof.Machine
end
